-- ==== Sys2Proof/Word.lean ====
section
/-! DEFINITION. The word types of chip8_cpu_core (spec 00_scope.md R8, R10, R11; 10_state.md R20, R24, R26, R31, R32). -/

namespace Sys2Proof

/-- One byte: a V register, a timer, a memory cell (R20, R30, R60). -/
abbrev Byte := BitVec 8

/-- A 16-bit word: an instruction word, `pc`, `I`, a return address (R24, R26, R28, R90). -/
abbrev Word := BitVec 16

/-- The 12-bit address field NNN = W[11:0] of an instruction word (R91). -/
abbrev Addr12 := BitVec 12

/-- A general register's index 0x0 to 0xF: every value of a 4-bit field X or Y is legal (R20). -/
abbrev Reg := Fin 16

/-- A logical key's number 0x0 to 0xF (R32). -/
abbrev Key := Fin 16

/-- A display row 0 to 31 (R31). -/
abbrev Row := Fin 32

/-- A display column 0 to 63 (R31). -/
abbrev Col := Fin 64

end Sys2Proof
end

