-- ==== Sys2Proof/Config.lean ====
section
/-! DEFINITION. What is fixed for one machine (the CONFIG fields, 10_state.md R44, and the parameters of 00_scope.md R9),
what the platform presents to one pass (60_exceptions.md R296), and the one free value: the inputs of a pass for which
no input is listed in State. -/

namespace Sys2Proof

/-- `increment_mode`, CONFIG[3:2] (R44): how FX55 and FX65 move I (42_index_memory.md R190). The fourth encoding is
reserved and has no constructor. -/
inductive IncrementMode where
  | xPlus1
  | x
  | none
  deriving DecidableEq, Repr

/-- A fault policy, CONFIG[6:5] and CONFIG[8:7] (R44, R263). The fourth encoding is reserved and has no constructor. -/
inductive Policy where
  | halt
  | skip
  | ask
  deriving DecidableEq, Repr

/-- CONFIG (CR0, `cfg`): the quirk toggles and the fault policies, fixed at reset (R44). -/
structure Cfg where
  bitwiseQuirk         : Bool
  shiftQuirk           : Bool
  incrementMode        : IncrementMode
  drawOnCall           : Bool
  unknownOpcodePolicy  : Policy
  stackUnderflowPolicy : Policy
  deriving DecidableEq, Repr

/-- The default value of every CONFIG field (00_scope.md R9; log entry 4). -/
def Cfg.default : Cfg where
  bitwiseQuirk         := false
  shiftQuirk           := false
  incrementMode        := .xPlus1
  drawOnCall           := false
  unknownOpcodePolicy  := .halt
  stackUnderflowPolicy := .halt

/-- `STACK_DEPTH`'s default value (R9; log entry 5). The machine's own depth is the length of its call stack's storage. -/
def Config.stackDepth : Nat := 16

/-- One entry of `key_events`: a logical key and whether it went down (R296, R297). -/
structure KeyEvent where
  key  : Key
  down : Bool
  deriving DecidableEq, Repr, Inhabited

/-- The inputs of one pass, sampled once per pass (R296). `opChoice`: 0 none, 1 SKIP, 2 HALT, 3 read as 0 (R299). -/
structure PassInputs where
  keyEvents : List KeyEvent
  quit      : Bool
  timerTick : Bool
  execTick  : Bool
  randByte  : Byte
  opChoice  : BitVec 2
  deriving DecidableEq, Repr, Inhabited

/-- FREE VALUE (log entry 1). The inputs of the `n`-th step when State lists none for it: the spec admits every key
event, tick schedule, random byte and operator answer (R296 to R300; 92_eei_decisions.md D2, D12, D13, D18). It has no
body, so nothing can be proved about it. -/
opaque Config.freePassInputs : Nat → PassInputs

end Sys2Proof
end

