-- ==== Sys2Proof/Syntax.lean ====
section
/-! DEFINITION. The instruction set: one constructor per row of the opcode map (30_encoding.md R94), with the operands
of the row's format (R91, R92). -/

namespace Sys2Proof

/-- The 35 instructions, in the order of the opcode map (R94). -/
inductive Instr where
  /-- 00E0 clear (R221) -/
  | clear
  /-- 00EE return (R122) -/
  | ret
  /-- 0NNN legacy-call (R123) -/
  | legacyCall (nnn : Addr12)
  /-- 1NNN jump (R124) -/
  | jump (nnn : Addr12)
  /-- 2NNN call (R125) -/
  | call (nnn : Addr12)
  /-- 3XNN skip-eq-imm (R126) -/
  | skipEqImm (x : Reg) (nn : Byte)
  /-- 4XNN skip-neq-imm (R127) -/
  | skipNeqImm (x : Reg) (nn : Byte)
  /-- 5XY0 skip-eq-reg (R128) -/
  | skipEqReg (x y : Reg)
  /-- 6XNN load-imm (R152) -/
  | loadImm (x : Reg) (nn : Byte)
  /-- 7XNN add-imm (R153) -/
  | addImm (x : Reg) (nn : Byte)
  /-- 8XY0 copy (R154) -/
  | copy (x y : Reg)
  /-- 8XY1 or (R155) -/
  | or (x y : Reg)
  /-- 8XY2 and (R156) -/
  | and (x y : Reg)
  /-- 8XY3 xor (R157) -/
  | xor (x y : Reg)
  /-- 8XY4 add (R158) -/
  | add (x y : Reg)
  /-- 8XY5 sub (R159) -/
  | sub (x y : Reg)
  /-- 8XY6 shr (R160) -/
  | shr (x y : Reg)
  /-- 8XY7 subn (R161) -/
  | subn (x y : Reg)
  /-- 8XYE shl (R162) -/
  | shl (x y : Reg)
  /-- 9XY0 skip-neq-reg (R129) -/
  | skipNeqReg (x y : Reg)
  /-- ANNN load-I (R191) -/
  | loadI (nnn : Addr12)
  /-- BNNN jump-plus (R130) -/
  | jumpPlus (nnn : Addr12)
  /-- CXNN rand (R163) -/
  | rand (x : Reg) (nn : Byte)
  /-- DXYN draw (R222); `n` is the row count 0 to 15 -/
  | draw (x y : Reg) (n : Fin 16)
  /-- EX9E skip-key-down (R241) -/
  | skipKeyDown (x : Reg)
  /-- EXA1 skip-key-up (R242) -/
  | skipKeyUp (x : Reg)
  /-- FX07 read-delay (R243) -/
  | readDelay (x : Reg)
  /-- FX0A wait-key (R244) -/
  | waitKey (x : Reg)
  /-- FX15 write-delay (R245) -/
  | writeDelay (x : Reg)
  /-- FX18 write-sound (R246) -/
  | writeSound (x : Reg)
  /-- FX1E add-I (R192) -/
  | addI (x : Reg)
  /-- FX29 sprite-addr (R193) -/
  | spriteAddr (x : Reg)
  /-- FX33 bcd (R194) -/
  | bcd (x : Reg)
  /-- FX55 store-regs (R195) -/
  | storeRegs (x : Reg)
  /-- FX65 load-regs (R196) -/
  | loadRegs (x : Reg)
  deriving DecidableEq, Repr

end Sys2Proof
end

