-- ==== Sys2Proof/WellFormed.lean ====
section
/-! DEFINITION. Which terms of `Instr` stand for an instruction word (30_encoding.md R94, R95). -/

namespace Sys2Proof

/-- Operand ranges are carried by the operands' types (R92); the one check left is R95's priority: 0x00E0 and 0x00EE
are `clear` and `return`, so no legacy-call has NNN = 0x0E0 or 0x0EE. -/
def WellFormed (i : Instr) : Bool :=
  match i with
  | .legacyCall nnn => nnn != 0x0E0#12 && nnn != 0x0EE#12
  | .clear => true
  | .ret => true
  | .jump _ => true
  | .call _ => true
  | .skipEqImm _ _ => true
  | .skipNeqImm _ _ => true
  | .skipEqReg _ _ => true
  | .loadImm _ _ => true
  | .addImm _ _ => true
  | .copy _ _ => true
  | .or _ _ => true
  | .and _ _ => true
  | .xor _ _ => true
  | .add _ _ => true
  | .sub _ _ => true
  | .shr _ _ => true
  | .subn _ _ => true
  | .shl _ _ => true
  | .skipNeqReg _ _ => true
  | .loadI _ => true
  | .jumpPlus _ => true
  | .rand _ _ => true
  | .draw _ _ _ => true
  | .skipKeyDown _ => true
  | .skipKeyUp _ => true
  | .readDelay _ => true
  | .waitKey _ => true
  | .writeDelay _ => true
  | .writeSound _ => true
  | .addI _ => true
  | .spriteAddr _ => true
  | .bcd _ => true
  | .storeRegs _ => true
  | .loadRegs _ => true

end Sys2Proof
end

