-- ==== Sys2Proof/Decode.lean ====
section
/-! DEFINITION. The decoder (30_encoding.md R90 to R98), total on all words and on any bytes, the opcode map it is read
from (R94), and the encoder. -/

namespace Sys2Proof

/-- Why bytes decode to no instruction. -/
inductive DecodeError where
  /-- A word that matches no row of the opcode map (R96); the machine raises UNKNOWN_OPCODE when it is executed. -/
  | unknownOpcode (w : Word)
  /-- Fewer than the two bytes of an instruction (R90). -/
  | truncated
  deriving DecidableEq, Repr

/-- The field `W[hi:lo]`, read as an unsigned number (R10). -/
def field (w : Word) (hi lo : Nat) : Nat := w.toNat / 2 ^ lo % 2 ^ (hi + 1 - lo)

/-- X = W[11:8] (R91). -/
def fieldX (w : Word) : Reg := Fin.ofNat 16 (field w 11 8)

/-- Y = W[7:4] (R91). -/
def fieldY (w : Word) : Reg := Fin.ofNat 16 (field w 7 4)

/-- N = W[3:0] (R91). -/
def fieldN (w : Word) : Fin 16 := Fin.ofNat 16 (field w 3 0)

/-- NN = W[7:0] (R91). -/
def fieldNN (w : Word) : Byte := BitVec.ofNat 8 (field w 7 0)

/-- NNN = W[11:0] (R91). -/
def fieldNNN (w : Word) : Addr12 := BitVec.ofNat 12 (field w 11 0)

/-- `Decode(W)`, the decode function of R93, with the priority of R95. -/
def decodeWord (w : Word) : Except DecodeError Instr :=
  match field w 15 12 with
  | 0x0 => if w = 0x00E0#16 then .ok .clear
           else if w = 0x00EE#16 then .ok .ret
           else .ok (.legacyCall (fieldNNN w))
  | 0x1 => .ok (.jump (fieldNNN w))
  | 0x2 => .ok (.call (fieldNNN w))
  | 0x3 => .ok (.skipEqImm (fieldX w) (fieldNN w))
  | 0x4 => .ok (.skipNeqImm (fieldX w) (fieldNN w))
  | 0x5 => if field w 3 0 = 0x0 then .ok (.skipEqReg (fieldX w) (fieldY w)) else .error (.unknownOpcode w)
  | 0x6 => .ok (.loadImm (fieldX w) (fieldNN w))
  | 0x7 => .ok (.addImm (fieldX w) (fieldNN w))
  | 0x8 => match field w 3 0 with
    | 0x0 => .ok (.copy (fieldX w) (fieldY w))
    | 0x1 => .ok (.or (fieldX w) (fieldY w))
    | 0x2 => .ok (.and (fieldX w) (fieldY w))
    | 0x3 => .ok (.xor (fieldX w) (fieldY w))
    | 0x4 => .ok (.add (fieldX w) (fieldY w))
    | 0x5 => .ok (.sub (fieldX w) (fieldY w))
    | 0x6 => .ok (.shr (fieldX w) (fieldY w))
    | 0x7 => .ok (.subn (fieldX w) (fieldY w))
    | 0xE => .ok (.shl (fieldX w) (fieldY w))
    | _ => .error (.unknownOpcode w)
  | 0x9 => if field w 3 0 = 0x0 then .ok (.skipNeqReg (fieldX w) (fieldY w)) else .error (.unknownOpcode w)
  | 0xA => .ok (.loadI (fieldNNN w))
  | 0xB => .ok (.jumpPlus (fieldNNN w))
  | 0xC => .ok (.rand (fieldX w) (fieldNN w))
  | 0xD => .ok (.draw (fieldX w) (fieldY w) (fieldN w))
  | 0xE => match field w 7 0 with
    | 0x9E => .ok (.skipKeyDown (fieldX w))
    | 0xA1 => .ok (.skipKeyUp (fieldX w))
    | _ => .error (.unknownOpcode w)
  | 0xF => match field w 7 0 with
    | 0x07 => .ok (.readDelay (fieldX w))
    | 0x0A => .ok (.waitKey (fieldX w))
    | 0x15 => .ok (.writeDelay (fieldX w))
    | 0x18 => .ok (.writeSound (fieldX w))
    | 0x1E => .ok (.addI (fieldX w))
    | 0x29 => .ok (.spriteAddr (fieldX w))
    | 0x33 => .ok (.bcd (fieldX w))
    | 0x55 => .ok (.storeRegs (fieldX w))
    | 0x65 => .ok (.loadRegs (fieldX w))
    | _ => .error (.unknownOpcode w)
  | _ => .error (.unknownOpcode w)

/-- The instruction word of two bytes, the byte at the lower address being W[15:8] (20_memory.md R63). -/
def wordOfBytes (hi lo : Byte) : Word := hi ++ lo

/-- Reads the first instruction of a list of bytes and returns it with the bytes after it (R63, R90, R98). -/
def decodeBytes : List Byte → Except DecodeError (Instr × List Byte)
  | hi :: lo :: rest =>
    match decodeWord (wordOfBytes hi lo) with
    | .ok i => .ok (i, rest)
    | .error e => .error e
  | _ => .error .truncated

/-! ## The encoder, from the formats of R91 and the `match` column of R94 -/

/-- Format `NNN`: op:4, NNN:12. -/
def encodeNNN (op : Nat) (nnn : Addr12) : Word := BitVec.ofNat 16 (op * 4096 + nnn.toNat)

/-- Format `XNN`: op:4, X:4, NN:8; with a fixed NN it is format `X`: op:4, X:4, func:8. -/
def encodeXNN (op : Nat) (x : Reg) (nn : Byte) : Word := BitVec.ofNat 16 (op * 4096 + x.val * 256 + nn.toNat)

/-- Format `XYN`: op:4, X:4, Y:4, N:4; with a fixed N it is format `XY`: op:4, X:4, Y:4, func:4. -/
def encodeXYN (op : Nat) (x y : Reg) (n : Fin 16) : Word :=
  BitVec.ofNat 16 (op * 4096 + x.val * 256 + y.val * 16 + n.val)

/-- The word of an instruction (R94). -/
def encode (i : Instr) : Word :=
  match i with
  | .clear => 0x00E0#16
  | .ret => 0x00EE#16
  | .legacyCall nnn => encodeNNN 0x0 nnn
  | .jump nnn => encodeNNN 0x1 nnn
  | .call nnn => encodeNNN 0x2 nnn
  | .skipEqImm x nn => encodeXNN 0x3 x nn
  | .skipNeqImm x nn => encodeXNN 0x4 x nn
  | .skipEqReg x y => encodeXYN 0x5 x y 0x0
  | .loadImm x nn => encodeXNN 0x6 x nn
  | .addImm x nn => encodeXNN 0x7 x nn
  | .copy x y => encodeXYN 0x8 x y 0x0
  | .or x y => encodeXYN 0x8 x y 0x1
  | .and x y => encodeXYN 0x8 x y 0x2
  | .xor x y => encodeXYN 0x8 x y 0x3
  | .add x y => encodeXYN 0x8 x y 0x4
  | .sub x y => encodeXYN 0x8 x y 0x5
  | .shr x y => encodeXYN 0x8 x y 0x6
  | .subn x y => encodeXYN 0x8 x y 0x7
  | .shl x y => encodeXYN 0x8 x y 0xE
  | .skipNeqReg x y => encodeXYN 0x9 x y 0x0
  | .loadI nnn => encodeNNN 0xA nnn
  | .jumpPlus nnn => encodeNNN 0xB nnn
  | .rand x nn => encodeXNN 0xC x nn
  | .draw x y n => encodeXYN 0xD x y n
  | .skipKeyDown x => encodeXNN 0xE x 0x9E#8
  | .skipKeyUp x => encodeXNN 0xE x 0xA1#8
  | .readDelay x => encodeXNN 0xF x 0x07#8
  | .waitKey x => encodeXNN 0xF x 0x0A#8
  | .writeDelay x => encodeXNN 0xF x 0x15#8
  | .writeSound x => encodeXNN 0xF x 0x18#8
  | .addI x => encodeXNN 0xF x 0x1E#8
  | .spriteAddr x => encodeXNN 0xF x 0x29#8
  | .bcd x => encodeXNN 0xF x 0x33#8
  | .storeRegs x => encodeXNN 0xF x 0x55#8
  | .loadRegs x => encodeXNN 0xF x 0x65#8

/-- The bytes of an instruction as memory holds them, the first at the lower address (R63). -/
def bytesOfWord (w : Word) : List Byte := [BitVec.ofNat 8 (w.toNat / 256), BitVec.ofNat 8 w.toNat]

/-! ## The opcode map as data -/

/-- The table's mnemonic of an instruction (R94, R99). -/
def Instr.mnemonic (i : Instr) : String :=
  match i with
  | .clear => "clear"
  | .ret => "return"
  | .legacyCall _ => "legacy-call"
  | .jump _ => "jump"
  | .call _ => "call"
  | .skipEqImm _ _ => "skip-eq-imm"
  | .skipNeqImm _ _ => "skip-neq-imm"
  | .skipEqReg _ _ => "skip-eq-reg"
  | .loadImm _ _ => "load-imm"
  | .addImm _ _ => "add-imm"
  | .copy _ _ => "copy"
  | .or _ _ => "or"
  | .and _ _ => "and"
  | .xor _ _ => "xor"
  | .add _ _ => "add"
  | .sub _ _ => "sub"
  | .shr _ _ => "shr"
  | .subn _ _ => "subn"
  | .shl _ _ => "shl"
  | .skipNeqReg _ _ => "skip-neq-reg"
  | .loadI _ => "load-I"
  | .jumpPlus _ => "jump-plus"
  | .rand _ _ => "rand"
  | .draw _ _ _ => "draw"
  | .skipKeyDown _ => "skip-key-down"
  | .skipKeyUp _ => "skip-key-up"
  | .readDelay _ => "read-delay"
  | .waitKey _ => "wait-key"
  | .writeDelay _ => "write-delay"
  | .writeSound _ => "write-sound"
  | .addI _ => "add-I"
  | .spriteAddr _ => "sprite-addr"
  | .bcd _ => "bcd"
  | .storeRegs _ => "store-regs"
  | .loadRegs _ => "load-regs"

/-- One row of the opcode map: a word W is of this row when `W & mask = value` (R94's `mask` and `match` columns). -/
structure OpcodeRow where
  mnemonic : String
  mask     : Word
  value    : Word
  deriving DecidableEq, Repr

/-- Whether a word selects a row. -/
def OpcodeRow.selects (r : OpcodeRow) (w : Word) : Bool := w &&& r.mask == r.value

/-- Rows 00E0 to 9XY0 of the opcode map, in its order (R94). -/
def opcodeMapLow : List OpcodeRow :=
  [⟨"clear", 0xFFFF#16, 0x00E0#16⟩, ⟨"return", 0xFFFF#16, 0x00EE#16⟩, ⟨"legacy-call", 0xF000#16, 0x0000#16⟩,
   ⟨"jump", 0xF000#16, 0x1000#16⟩, ⟨"call", 0xF000#16, 0x2000#16⟩, ⟨"skip-eq-imm", 0xF000#16, 0x3000#16⟩,
   ⟨"skip-neq-imm", 0xF000#16, 0x4000#16⟩, ⟨"skip-eq-reg", 0xF00F#16, 0x5000#16⟩, ⟨"load-imm", 0xF000#16, 0x6000#16⟩,
   ⟨"add-imm", 0xF000#16, 0x7000#16⟩, ⟨"copy", 0xF00F#16, 0x8000#16⟩, ⟨"or", 0xF00F#16, 0x8001#16⟩,
   ⟨"and", 0xF00F#16, 0x8002#16⟩, ⟨"xor", 0xF00F#16, 0x8003#16⟩, ⟨"add", 0xF00F#16, 0x8004#16⟩,
   ⟨"sub", 0xF00F#16, 0x8005#16⟩, ⟨"shr", 0xF00F#16, 0x8006#16⟩, ⟨"subn", 0xF00F#16, 0x8007#16⟩,
   ⟨"shl", 0xF00F#16, 0x800E#16⟩, ⟨"skip-neq-reg", 0xF00F#16, 0x9000#16⟩]

/-- Rows ANNN to FX65 of the opcode map, in its order (R94). -/
def opcodeMapHigh : List OpcodeRow :=
  [⟨"load-I", 0xF000#16, 0xA000#16⟩, ⟨"jump-plus", 0xF000#16, 0xB000#16⟩, ⟨"rand", 0xF000#16, 0xC000#16⟩,
   ⟨"draw", 0xF000#16, 0xD000#16⟩, ⟨"skip-key-down", 0xF0FF#16, 0xE09E#16⟩, ⟨"skip-key-up", 0xF0FF#16, 0xE0A1#16⟩,
   ⟨"read-delay", 0xF0FF#16, 0xF007#16⟩, ⟨"wait-key", 0xF0FF#16, 0xF00A#16⟩, ⟨"write-delay", 0xF0FF#16, 0xF015#16⟩,
   ⟨"write-sound", 0xF0FF#16, 0xF018#16⟩, ⟨"add-I", 0xF0FF#16, 0xF01E#16⟩, ⟨"sprite-addr", 0xF0FF#16, 0xF029#16⟩,
   ⟨"bcd", 0xF0FF#16, 0xF033#16⟩, ⟨"store-regs", 0xF0FF#16, 0xF055#16⟩, ⟨"load-regs", 0xF0FF#16, 0xF065#16⟩]

/-- The opcode map, 35 rows (R94). -/
def opcodeMap : List OpcodeRow := opcodeMapLow ++ opcodeMapHigh

/-- The mnemonic of the first row that a word selects: 00E0 and 00EE stand before 0NNN (R95). -/
def opcodeMapLookup (w : Word) : Option String := (opcodeMap.find? (·.selects w)).map (·.mnemonic)

/-- The instruction the decoder reads from the low `nbits` bits of `w`, laid out in memory as the hardware stores a
word (R63). Every instruction has 16 bits (R90). -/
def decodeTableWord (nbits w : Nat) : Option Instr :=
  match decodeBytes (bytesOfWord (BitVec.ofNat 16 (w % 2 ^ nbits))) with
  | .ok (i, _) => some i
  | .error _ => none

end Sys2Proof
end

