-- ==== Sys2Proof/Machine/Font.lean ====
section
/-! DEFINITION. The default of the parameter `FONT`: 16 glyphs of 5 bytes (10_state.md R33, 70_reset_and_hazards.md
R326; log entry 6). -/

namespace Sys2Proof.Machine

/-- Glyphs 0 to 7, addresses 0x000 to 0x027 (R33). -/
def fontLow : List Byte :=
  [0xF0#8, 0x90#8, 0x90#8, 0x90#8, 0xF0#8,
   0x20#8, 0x60#8, 0x20#8, 0x20#8, 0x70#8,
   0xF0#8, 0x10#8, 0xF0#8, 0x80#8, 0xF0#8,
   0xF0#8, 0x10#8, 0xF0#8, 0x10#8, 0xF0#8,
   0x90#8, 0x90#8, 0xF0#8, 0x10#8, 0x10#8,
   0xF0#8, 0x80#8, 0xF0#8, 0x10#8, 0xF0#8,
   0xF0#8, 0x80#8, 0xF0#8, 0x90#8, 0xF0#8,
   0xF0#8, 0x10#8, 0x20#8, 0x40#8, 0x40#8]

/-- Glyphs 8 to F, addresses 0x028 to 0x04F (R33). -/
def fontHigh : List Byte :=
  [0xF0#8, 0x90#8, 0xF0#8, 0x90#8, 0xF0#8,
   0xF0#8, 0x90#8, 0xF0#8, 0x10#8, 0xF0#8,
   0xF0#8, 0x90#8, 0xF0#8, 0x90#8, 0x90#8,
   0xE0#8, 0x90#8, 0xE0#8, 0x90#8, 0xE0#8,
   0xF0#8, 0x80#8, 0x80#8, 0x80#8, 0xF0#8,
   0xE0#8, 0x90#8, 0x90#8, 0x90#8, 0xE0#8,
   0xF0#8, 0x80#8, 0xF0#8, 0x80#8, 0xF0#8,
   0xF0#8, 0x80#8, 0xF0#8, 0x80#8, 0x80#8]

/-- The 80 bytes of the default `FONT`; glyph g starts at 5 * g (R33). -/
def defaultFont : Vector Byte 80 := Vector.ofFn fun k => (fontLow ++ fontHigh).getD k.val 0#8

/-- What a memory byte holds when no cell is listed for it: the default font in [0x000, 0x050) and 0x00 elsewhere, the
contents after reset (10_state.md R48, 70_reset_and_hazards.md R325, R326). -/
def unlistedByte (a : Nat) : Byte := (fontLow ++ fontHigh).getD a 0#8

end Sys2Proof.Machine
end

