-- ==== Sys2Proof/Machine/State.lean ====
section
/-! DEFINITION. The machine's state as plain data: all the state of 10_state.md, the ports of 60_exceptions.md R296 to
R305, and the model's own bookkeeping of what the host presents. -/

namespace Sys2Proof.Machine

/-- RUN_STATE (CR1): 0 RUNNING, 1 WAITING, 2 HALTED; 3 is never held (R41). -/
inductive RunState where
  | running
  | waiting
  | halted
  deriving DecidableEq, Repr

/-- HALT_REASON (CR3): 0 NONE, 1 QUIT, 2 FAULT, 3 LOAD_ERROR (R43). -/
inductive HaltReason where
  | none
  | quit
  | fault
  | loadError
  deriving DecidableEq, Repr

/-- FAULT_CAUSE (CR4): the cause codes 0 to 6 in their order; 7 is never written (60_exceptions.md R261). -/
inductive FaultCause where
  | none
  | unknownOpcode
  | stackUnderflow
  | stackOverflow
  | memBoundsFetch
  | memBoundsData
  | keyRange
  deriving DecidableEq, Repr

/-- The fault record, CR4 to CR7 (R45). -/
structure FaultRecord where
  cause  : FaultCause
  pc     : Word
  opcode : Word
  addr   : Word
  deriving DecidableEq, Repr

/-- The call stack (R28): `entries` is `stack[0]` to `stack[STACK_DEPTH-1]`, so its length is the machine's parameter
`STACK_DEPTH`; `sp` is the number of saved addresses. -/
structure CallStack where
  entries : List Word
  sp      : Nat
  deriving DecidableEq, Repr

/-- Memory: the bytes that differ from what an unlisted address reads as, addresses strictly rising (20_memory.md R60). -/
abbrev Memory := List Host.Cell

/-- The display buffer: 32 rows of 64 one-bit pixels; bit `x` of row `y` is `disp[y][x]` (R31). Row after row, row 0
lowest, these bits are `display_frame`, formed by `Display.frame` (60_exceptions.md R302). -/
abbrev Display := Vector (BitVec 64) 32

/-- What became of the load of this reset (70_reset_and_hazards.md R327, R328). -/
inductive LoadStatus where
  | notCalled
  | ok
  | failed
  deriving DecidableEq, Repr

/-- The reset input `rst`: released, or asserted with the outcome of this reset's load so far (R320, R321). -/
inductive ResetLine where
  | released
  | asserted (load : LoadStatus)
  deriving DecidableEq, Repr

/-- What the loader presents to the load port: a byte sequence, or the report that the source is unreadable (R327). -/
inductive LoadRequest where
  | image (bytes : List Byte)
  | unreadable
  deriving DecidableEq, Repr

/-- What the outside world does to the block in one step: drive one pass (R280, R296), assert `rst` with the 9
configuration inputs held (R320, R324), call LoadImage (R327), or release `rst` (R321). -/
inductive HostEvent where
  | pass (inputs : PassInputs)
  | assertReset (config : BitVec 9)
  | loadImage (request : LoadRequest)
  | releaseReset
  deriving DecidableEq, Repr

/-- The state of the block. -/
structure State where
  /-- `V[0]` to `V[15]` (R20); `V[15]` is VF (R22) -/
  v           : Vector Byte 16
  /-- the address register `I` (R26) -/
  i           : Word
  /-- the program counter (R24) -/
  pc          : Word
  /-- `stack[k]` and `SP` (R28) -/
  callStack   : CallStack
  /-- the delay timer DT (R30) -/
  dt          : Byte
  /-- the sound timer ST (R30) -/
  st          : Byte
  /-- the display buffer `disp[y][x]` (R31) -/
  disp        : Display
  /-- `keys[k]`, true when pressed (R32) -/
  keys        : Vector Bool 16
  /-- `mem[a]` (20_memory.md R60) -/
  mem         : Memory
  /-- RUN_STATE (R41) -/
  runState    : RunState
  /-- WAIT_REG (R42) -/
  waitReg     : Reg
  /-- HALT_REASON (R43) -/
  haltReason  : HaltReason
  /-- CONFIG (R44) -/
  cfg         : Cfg
  /-- FAULT_CAUSE, FAULT_PC, FAULT_OPCODE, FAULT_ADDR (R45) -/
  fault       : FaultRecord
  /-- `push_pending` (R47, 43_display.md R225) -/
  pushPending : Bool
  /-- the outputs `display_push` and `display_frame`: `some f` when `display_push` = 1 with the snapshot f, `none` when
  `display_push` = 0, for then `display_frame` means nothing (60_exceptions.md R302; log entry 7) -/
  displayOut  : Option Display
  /-- the output `fault_event` (R304) -/
  faultEvent  : Bool
  /-- the inputs of the current pass, sampled at its start (R296) -/
  ports       : PassInputs
  /-- the reset input and the outcome of this reset's load (R320, R321, R327) -/
  rst         : ResetLine
  /-- the parameter `FONT`, never written (R9, R33) -/
  font        : Vector Byte 80
  /-- the model's own: what the host does in the coming steps, the next first (log entry 1) -/
  pending     : List HostEvent
  /-- the model's own: how many steps were taken, the index of the next free value (log entry 1) -/
  stepNo      : Nat
  deriving DecidableEq, Repr

/-- The faults that stop the MODEL. The block's own faults (R261) do not: they are states with a fault record. -/
inductive Fault where
  /-- Raised by `return` and `call` in a state whose SP is above STACK_DEPTH; the spec has no such state (R28), and no
  step leads to one. SAFE: the model stops. -/
  | stackPointerRange
  deriving DecidableEq, Repr

/-- Where the model claims nothing. -/
inductive Refusal where
  /-- An instruction without a meaning, raised by an arm of `exec` only. SAFE: the model stops. -/
  | notModelled (mnemonic : String)
  /-- Raised by an assertion of `rst` whose configuration inputs hold a reserved value: "A configuration holding a
  reserved value is refused" (R44). SAFE: the model stops. -/
  | reservedConfig
  /-- Raised by a LoadImage while `rst` is released or after this reset's load: "available only while `rst` is asserted
  and at most once per reset" (R327). SAFE: the model stops. -/
  | loadUnavailable
  deriving DecidableEq, Repr

/-- The machine right after reset with an empty image, `rst` released (R48, R321), with every parameter at its default
(R9). The fields R48 does not list are the model's: log entries 1, 3, 4, 5, 6 and 7. -/
def State.reset : State where
  v           := Vector.replicate 16 0#8
  i           := 0x0000#16
  pc          := 0x0200#16
  callStack   := { entries := List.replicate Config.stackDepth 0x0000#16, sp := 0 }
  dt          := 0#8
  st          := 0#8
  disp        := Vector.replicate 32 0#64
  keys        := Vector.replicate 16 false
  mem         := []
  runState    := .running
  waitReg     := 0
  haltReason  := .none
  cfg         := Cfg.default
  fault       := { cause := .none, pc := 0x0000#16, opcode := 0x0000#16, addr := 0x0000#16 }
  pushPending := false
  displayOut  := none
  faultEvent  := false
  ports       := { keyEvents := [], quit := false, timerTick := false, execTick := false, randByte := 0#8, opChoice := 0#2 }
  rst         := .released
  font        := defaultFont
  pending     := []
  stepNo      := 0

end Sys2Proof.Machine
end

