-- ==== Sys2Proof/Machine/Ops.lean ====
section
/-! DEFINITION. The named operations over the state: the one-field updates, memory, the call stack, the display buffer,
skipping, and raising a fault (00_scope.md R13). -/

namespace Sys2Proof.Machine

/-! ## One update per piece of state -/

/-- `V[x] <- b` (R20). -/
def State.setV (s : State) (x : Reg) (b : Byte) : State := { s with v := s.v.set x.val b x.isLt }

/-- All sixteen V registers at once. -/
def State.setRegs (s : State) (v : Vector Byte 16) : State := { s with v := v }

/-- `I <- a` (R26). -/
def State.setI (s : State) (a : Word) : State := { s with i := a }

/-- `pc <- a` (R24). -/
def State.setPc (s : State) (a : Word) : State := { s with pc := a }

/-- The call stack, entries and SP (R28). -/
def State.setCallStack (s : State) (c : CallStack) : State := { s with callStack := c }

/-- `DT <- b` (R30). -/
def State.setDT (s : State) (b : Byte) : State := { s with dt := b }

/-- `ST <- b` (R30). -/
def State.setST (s : State) (b : Byte) : State := { s with st := b }

/-- The whole display buffer (R31). -/
def State.setDisp (s : State) (d : Display) : State := { s with disp := d }

/-- `keys[k] <- down` (R32). -/
def State.setKey (s : State) (k : Key) (down : Bool) : State := { s with keys := s.keys.set k.val down k.isLt }

/-- The memory (R60). -/
def State.setMem (s : State) (m : Memory) : State := { s with mem := m }

/-- `wait_reg <- x; run_state <- WAITING` (44_keys_timers.md R244). -/
def State.enterWait (s : State) (x : Reg) : State := { s with waitReg := x, runState := .waiting }

/-- `run_state <- RUNNING` (60_exceptions.md R283). -/
def State.wake (s : State) : State := { s with runState := .running }

/-- `run_state <- HALTED; halt_reason <- r` (R43). -/
def State.halt (s : State) (r : HaltReason) : State := { s with runState := .halted, haltReason := r }

/-- The fault record written and `fault_event <- 1` (60_exceptions.md R262). -/
def State.recordFault (s : State) (f : FaultRecord) : State := { s with fault := f, faultEvent := true }

/-- `push_pending <- b` (43_display.md R225). -/
def State.setPushPending (s : State) (b : Bool) : State := { s with pushPending := b }

/-- `Push()`: `display_push` <- 1 with the snapshot of `disp` (60_exceptions.md R280, R302). -/
def State.pushDisplay (s : State) : State := { s with displayOut := some s.disp }

/-- `display_push <- 0; fault_event <- 0; push_pending <- 0`, the start of every pass (60_exceptions.md R280). -/
def State.clearOutputs (s : State) : State := { s with displayOut := none, faultEvent := false, pushPending := false }

/-- The inputs of the pass, sampled (60_exceptions.md R296). -/
def State.setPorts (s : State) (p : PassInputs) : State := { s with ports := p }

/-- The reset line (70_reset_and_hazards.md R320). -/
def State.setRst (s : State) (r : ResetLine) : State := { s with rst := r }

/-- The host event of this step is taken: the next step sees the one after it (log entry 1). -/
def State.takeEvent (s : State) : State := { s with pending := s.pending.tail, stepNo := s.stepNo + 1 }

/-! ## Registers, keys and pixels read -/

/-- `V[x]` (R20). -/
def State.getV (s : State) (x : Reg) : Byte := s.v[x.val]

/-- `keys[k]` (R32). -/
def State.getKey (s : State) (k : Key) : Bool := s.keys[k.val]

/-- `disp[y][x]` of a display buffer (R31). -/
def Display.pixel (d : Display) (y : Row) (x : Col) : Bool := d[y.val].getLsbD x.val

/-- `disp[y][x] <- disp[y][x] ^ 1` (R222). -/
def Display.flip (d : Display) (y : Row) (x : Col) : Display :=
  d.set y.val (d[y.val] ^^^ BitVec.twoPow 64 x.val) y.isLt

/-- Every pixel off (R221). -/
def Display.off : Display := Vector.replicate 32 0#64

/-! ## Memory (20_memory.md) -/

/-- The number of memory bytes: addresses 0x000 to 0xFFF exist (R60). -/
def memSize : Nat := 4096

/-- The byte at `a`, which callers have checked to be below 0x1000 (R65): the listed cell or, where none is listed, the
reset contents. -/
def Memory.read : Memory → Nat → Byte
  | [], a => unlistedByte a
  | (k, b) :: rest, a => if k = a then b else Memory.read rest a

/-- The cells without the one at `a`. -/
def Memory.erase (m : Memory) (a : Nat) : Memory := m.filter fun c => c.1 != a

/-- The cells with `b` listed at `a`, addresses rising. -/
def Memory.insert : Memory → Nat → Byte → Memory
  | [], a, b => [(a, b)]
  | (k, c) :: rest, a, b =>
    if a < k then (a, b) :: (k, c) :: rest
    else if a = k then (a, b) :: rest
    else (k, c) :: Memory.insert rest a b

/-- `mem[a] <- b` for a byte that callers have checked to exist (R66), in the canonical form. -/
def Memory.write (m : Memory) (a : Nat) (b : Byte) : Memory :=
  if b = unlistedByte a then Memory.erase m a else Memory.insert m a b

/-- The bytes of a list written from `a` upwards, in order. -/
def Memory.writeBytes : Memory → Nat → List Byte → Memory
  | m, _, [] => m
  | m, a, b :: bs => Memory.writeBytes (Memory.write m a b) (a + 1) bs

/-- The canonical form: addresses strictly rising and below 0x1000, and no cell listed that holds what its address reads
as unlisted. -/
def Memory.wf (m : Memory) : Bool :=
  decide (m.Pairwise fun c d => c.1 < d.1) && m.all fun c => decide (c.1 < memSize) && (c.2 != unlistedByte c.1)

/-- `CheckRange(lo, hi)` (R67): the first out-of-range address of an access to [lo, hi], if it has one. -/
def checkRange (lo hi : Nat) : Option Nat := if hi > 0xFFF then some (max lo 0x1000) else none

/-! ## The call stack (R28, 40_control_flow.md R122, R125) -/

/-- `STACK_DEPTH` (R28). -/
def CallStack.depth (c : CallStack) : Nat := c.entries.length

/-- `stack[SP] <- a; SP <- SP + 1` where SP < STACK_DEPTH (R125). -/
def CallStack.push (c : CallStack) (a : Word) : CallStack := { entries := c.entries.set c.sp a, sp := c.sp + 1 }

/-- `SP <- SP - 1`; the entry keeps its old value (R122). -/
def CallStack.drop (c : CallStack) : CallStack := { entries := c.entries, sp := c.sp - 1 }

/-- `stack[SP-1]`, the top, where the stack holds one (R28). -/
def CallStack.top? (c : CallStack) : Option Word := if c.sp = 0 then none else c.entries[c.sp - 1]?

/-! ## Program counter -/

/-- `pc <- (pc + 2) mod 2^16`: the fetch's advance (30_encoding.md R101) and `Skip()` (40_control_flow.md R121). -/
def State.advance (s : State) : State := s.setPc (s.pc + 2#16)

/-- `if b then Skip()` (R121). -/
def State.skipIf (s : State) (b : Bool) : State := if b then s.advance else s

/-! ## Raising a fault (60_exceptions.md R261 to R268) -/

/-- The outcome of `Resolve` (R263). -/
inductive Resolution where
  | halt
  | skip
  deriving DecidableEq, Repr

/-- One policy applied, with the operator's answer of the pass (R263, R266, R299): only the answer 1 is SKIP. -/
def resolvePolicy (p : Policy) (opChoice : BitVec 2) : Resolution :=
  match p with
  | .halt => .halt
  | .skip => .skip
  | .ask => if opChoice = 1#2 then .skip else .halt

/-- `Resolve(cause)` (R263). `none` raises no fault. -/
def State.resolve (s : State) (c : FaultCause) : Resolution :=
  match c with
  | .unknownOpcode => resolvePolicy s.cfg.unknownOpcodePolicy s.ports.opChoice
  | .stackUnderflow => resolvePolicy s.cfg.stackUnderflowPolicy s.ports.opChoice
  | .stackOverflow => .halt
  | .memBoundsFetch => .halt
  | .memBoundsData => .halt
  | .keyRange => .halt
  | .none => .halt

/-- `raise Fault(cause, pc, opcode, addr)` (R262): the record, `fault_event`, and under HALT the halted state. There is
no handler and no return from a fault (R271, R272). -/
def State.raiseFault (s : State) (f : FaultRecord) : State :=
  match s.resolve f.cause with
  | .halt => (s.recordFault f).halt .fault
  | .skip => s.recordFault f

/-- The address A of the instruction being executed: `pc` already holds A + 2 (R101; log entry 8). -/
def State.instrAddr (s : State) : Word := s.pc - 2#16

/-- A fault raised by the rule of instruction `i`: A and W = `encode i` are recorded (R101; log entry 8). -/
def State.raiseIn (s : State) (i : Instr) (c : FaultCause) (addr : Word) : State :=
  s.raiseFault { cause := c, pc := s.instrAddr, opcode := encode i, addr := addr }

end Sys2Proof.Machine
end

