-- ==== Sys2Proof/Machine/Operands.lean ====
section
/-! DEFINITION. The operand forms: registers, immediates, addresses, the shift operand, the stored and loaded register
blocks, and the movement of I (30_encoding.md R92; 42_index_memory.md R190). -/

namespace Sys2Proof.Machine

/-- `zext_16(NNN)` (R92). -/
def addrOf (nnn : Addr12) : Word := nnn.setWidth 16

/-- `I + k` on unbounded integers (20_memory.md R67; 42_index_memory.md R190). -/
def State.dataAddr (s : State) (k : Nat) : Nat := s.i.toNat + k

/-- `src <- (cfg.shift_quirk = 1) ? y : x` (41_alu.md R160, R162). -/
def State.shiftSource (s : State) (x y : Reg) : Byte := if s.cfg.shiftQuirk then s.getV y else s.getV x

/-- The logical key that `V[x]` names, if it is one: k = x for x <= 0xF (44_keys_timers.md R240). -/
def keyOf (b : Byte) : Option Key := if h : b.toNat < 16 then some ⟨b.toNat, h⟩ else none

/-- A key's number as a byte, `zext_8(k)` (60_exceptions.md R283). -/
def keyByte (k : Key) : Byte := BitVec.ofNat 8 k.val

/-- `V[0]` to `V[X]`, the bytes FX55 stores (42_index_memory.md R195). -/
def State.regBlock (s : State) (x : Reg) : List Byte := s.v.toList.take (x.val + 1)

/-- The V registers after `V[k] <- mem[I + k]` for k in 0 .. X (42_index_memory.md R196). -/
def State.loadedRegs (s : State) (x : Reg) : Vector Byte 16 :=
  Vector.ofFn fun k => if k.val ≤ x.val then s.mem.read (s.dataAddr k.val) else s.getV k

/-- The hundreds, tens and ones digits of a byte, as FX33 stores them (42_index_memory.md R194). -/
def digits (b : Byte) : List Byte :=
  [BitVec.ofNat 8 (b.toNat / 100), BitVec.ofNat 8 (b.toNat / 10 % 10), BitVec.ofNat 8 (b.toNat % 10)]

/-- `IncI(n)` with n = X (42_index_memory.md R190). -/
def State.incI (s : State) (x : Reg) : State :=
  match s.cfg.incrementMode with
  | .xPlus1 => s.setI (BitVec.ofNat 16 (s.i.toNat + x.val + 1))
  | .x => s.setI (BitVec.ofNat 16 (s.i.toNat + x.val))
  | .none => s

end Sys2Proof.Machine
end

