-- ==== Sys2Proof/Machine/Flags.lean ====
section
/-! DEFINITION. What VF receives (10_state.md R22, R35) and in which order a result and its flag are written
(41_alu.md R151). -/

namespace Sys2Proof.Machine

/-- VF's index (R22). -/
def vf : Reg := 15

/-- A flag as VF holds it: 1 or 0 (R35). -/
def flagByte (b : Bool) : Byte := if b then 1#8 else 0#8

/-- Carry out of an addition: the unbounded sum exceeds 255 (R158). -/
def carryFlag (x y : Byte) : Byte := flagByte (decide (x.toNat + y.toNat > 255))

/-- No borrow in `a - b`: a >= b, equality included (R159, R161). -/
def noBorrowFlag (a b : Byte) : Byte := flagByte (decide (a.toNat ≥ b.toNat))

/-- The bit a right shift drops: bit 0 (R160). -/
def shrFlag (b : Byte) : Byte := flagByte (b.getLsbD 0)

/-- The bit a left shift drops: bit 7 (R162). -/
def shlFlag (b : Byte) : Byte := flagByte (b.getLsbD 7)

/-- `V[X] <- r`, then `VF <- f` last (R151). -/
def State.commit (s : State) (x : Reg) (r f : Byte) : State := (s.setV x r).setV vf f

/-- `if X != 0xF then V[X] <- d`, then `VF <- f` (R159, R161). -/
def State.commitUnlessVF (s : State) (x : Reg) (d f : Byte) : State := if x = vf then s.setV vf f else s.commit x d f

/-- `V[X] <- r`, then `VF <- 0` when `bitwise_quirk` = 1 (R155 to R157). -/
def State.commitBitwise (s : State) (x : Reg) (r : Byte) : State :=
  if s.cfg.bitwiseQuirk then s.commit x r 0#8 else s.setV x r

end Sys2Proof.Machine
end

