-- ==== Sys2Proof/Machine/Alu.lean ====
section
/-! DEFINITION. The register and arithmetic instructions (41_alu.md R150 to R164). Every operand is read before any
register is written (R151). -/

namespace Sys2Proof.Machine

/-- 6XNN (R152). -/
def execLoadImm (x : Reg) (nn : Byte) (s : State) : Host.Outcome State Fault Refusal := .next (s.setV x nn)

/-- 7XNN (R153): no flag. -/
def execAddImm (x : Reg) (nn : Byte) (s : State) : Host.Outcome State Fault Refusal :=
  .next (s.setV x (BitVec.ofNat 8 ((s.getV x).toNat + nn.toNat)))

/-- 8XY0 (R154). -/
def execCopy (x y : Reg) (s : State) : Host.Outcome State Fault Refusal := .next (s.setV x (s.getV y))

/-- 8XY1 (R155). -/
def execOr (x y : Reg) (s : State) : Host.Outcome State Fault Refusal :=
  .next (s.commitBitwise x (s.getV x ||| s.getV y))

/-- 8XY2 (R156). -/
def execAnd (x y : Reg) (s : State) : Host.Outcome State Fault Refusal :=
  .next (s.commitBitwise x (s.getV x &&& s.getV y))

/-- 8XY3 (R157). -/
def execXor (x y : Reg) (s : State) : Host.Outcome State Fault Refusal :=
  .next (s.commitBitwise x (s.getV x ^^^ s.getV y))

/-- 8XY4 (R158). -/
def execAdd (x y : Reg) (s : State) : Host.Outcome State Fault Refusal :=
  .next (s.commit x (BitVec.ofNat 8 ((s.getV x).toNat + (s.getV y).toNat)) (carryFlag (s.getV x) (s.getV y)))

/-- 8XY5 (R159). -/
def execSub (x y : Reg) (s : State) : Host.Outcome State Fault Refusal :=
  .next (s.commitUnlessVF x (s.getV x - s.getV y) (noBorrowFlag (s.getV x) (s.getV y)))

/-- 8XY6 (R160): the amount is always 1, the quirk selects the operand. -/
def execShr (x y : Reg) (s : State) : Host.Outcome State Fault Refusal :=
  .next (s.commit x (s.shiftSource x y >>> 1) (shrFlag (s.shiftSource x y)))

/-- 8XY7 (R161). -/
def execSubn (x y : Reg) (s : State) : Host.Outcome State Fault Refusal :=
  .next (s.commitUnlessVF x (s.getV y - s.getV x) (noBorrowFlag (s.getV y) (s.getV x)))

/-- 8XYE (R162). -/
def execShl (x y : Reg) (s : State) : Host.Outcome State Fault Refusal :=
  .next (s.commit x (s.shiftSource x y <<< 1) (shlFlag (s.shiftSource x y)))

/-- CXNN (R163): the pass's random byte, masked. -/
def execRand (x : Reg) (nn : Byte) (s : State) : Host.Outcome State Fault Refusal :=
  .next (s.setV x (s.ports.randByte &&& nn))

end Sys2Proof.Machine
end

