-- ==== Sys2Proof/Machine/Control.lean ====
section
/-! DEFINITION. The control flow instructions (40_control_flow.md R120 to R132). On entry `pc` is A + 2 (30_encoding.md
R101). -/

namespace Sys2Proof.Machine

/-- 00EE (R122). The last arm is a state with SP above STACK_DEPTH, which the spec does not have (log entry 9). -/
def execRet (s : State) : Host.Outcome State Fault Refusal :=
  if s.callStack.sp = 0 then .next (s.raiseIn .ret .stackUnderflow 0#16)
  else match s.callStack.top? with
    | some a => .next ((s.setCallStack s.callStack.drop).setPc a)
    | none => .fault .stackPointerRange

/-- 0NNN (R123): a no-op. -/
def execLegacyCall (_nnn : Addr12) (s : State) : Host.Outcome State Fault Refusal := .next s

/-- 1NNN (R124). -/
def execJump (nnn : Addr12) (s : State) : Host.Outcome State Fault Refusal := .next (s.setPc (addrOf nnn))

/-- 2NNN (R125). The last arm is a state with SP above STACK_DEPTH, which the spec does not have (log entry 9). -/
def execCall (nnn : Addr12) (s : State) : Host.Outcome State Fault Refusal :=
  if s.callStack.sp = s.callStack.depth then .next (s.raiseIn (.call nnn) .stackOverflow 0#16)
  else if s.callStack.sp < s.callStack.depth then
    .next ((s.setCallStack (s.callStack.push s.pc)).setPc (addrOf nnn))
  else .fault .stackPointerRange

/-- 3XNN (R126). -/
def execSkipEqImm (x : Reg) (nn : Byte) (s : State) : Host.Outcome State Fault Refusal :=
  .next (s.skipIf (s.getV x == nn))

/-- 4XNN (R127). -/
def execSkipNeqImm (x : Reg) (nn : Byte) (s : State) : Host.Outcome State Fault Refusal :=
  .next (s.skipIf (s.getV x != nn))

/-- 5XY0 (R128). -/
def execSkipEqReg (x y : Reg) (s : State) : Host.Outcome State Fault Refusal :=
  .next (s.skipIf (s.getV x == s.getV y))

/-- 9XY0 (R129). -/
def execSkipNeqReg (x y : Reg) (s : State) : Host.Outcome State Fault Refusal :=
  .next (s.skipIf (s.getV x != s.getV y))

/-- BNNN (R130): the register is always V[0]. -/
def execJumpPlus (nnn : Addr12) (s : State) : Host.Outcome State Fault Refusal :=
  .next (s.setPc (BitVec.ofNat 16 ((s.getV 0).toNat + nnn.toNat)))

end Sys2Proof.Machine
end

