-- ==== Sys2Proof/Machine/Index.lean ====
section
/-! DEFINITION. The index register and memory instructions (42_index_memory.md R190 to R196). The range of an access is
checked before anything is written (20_memory.md R67). -/

namespace Sys2Proof.Machine

/-- `CheckRange(I, I + k)` in front of the effect of instruction `i` (20_memory.md R67). -/
def State.withRange (s : State) (i : Instr) (k : Nat) (effect : State) : Host.Outcome State Fault Refusal :=
  match checkRange (s.dataAddr 0) (s.dataAddr k) with
  | some a => .next (s.raiseIn i .memBoundsData (BitVec.ofNat 16 a))
  | none => .next effect

/-- ANNN (R191). -/
def execLoadI (nnn : Addr12) (s : State) : Host.Outcome State Fault Refusal := .next (s.setI (addrOf nnn))

/-- FX1E (R192): no flag. -/
def execAddI (x : Reg) (s : State) : Host.Outcome State Fault Refusal :=
  .next (s.setI (BitVec.ofNat 16 (s.i.toNat + (s.getV x).toNat)))

/-- FX29 (R193): the product is used as it is. -/
def execSpriteAddr (x : Reg) (s : State) : Host.Outcome State Fault Refusal :=
  .next (s.setI (BitVec.ofNat 16 ((s.getV x).toNat * 5)))

/-- FX33 (R194). -/
def execBcd (x : Reg) (s : State) : Host.Outcome State Fault Refusal :=
  s.withRange (.bcd x) 2 (s.setMem (s.mem.writeBytes (s.dataAddr 0) (digits (s.getV x))))

/-- FX55 (R195). -/
def execStoreRegs (x : Reg) (s : State) : Host.Outcome State Fault Refusal :=
  s.withRange (.storeRegs x) x.val ((s.setMem (s.mem.writeBytes (s.dataAddr 0) (s.regBlock x))).incI x)

/-- FX65 (R196): every byte is read at the I of the start of the instruction. -/
def execLoadRegs (x : Reg) (s : State) : Host.Outcome State Fault Refusal :=
  s.withRange (.loadRegs x) x.val ((s.setRegs (s.loadedRegs x)).incI x)

end Sys2Proof.Machine
end

