-- ==== Sys2Proof/Machine/Draw.lean ====
section
/-! DEFINITION. The display instructions (43_display.md R220 to R226). -/

namespace Sys2Proof.Machine

/-- The cell of sprite row `r` and column `c` for a sprite at (y0, x0): the sums wrap (R220, R222). -/
def cellRow (y0 : Byte) (r : Nat) : Row := Fin.ofNat 32 (y0.toNat + r)

/-- The column of the cell (R220, R222). -/
def cellCol (x0 : Byte) (c : Nat) : Col := Fin.ofNat 64 (x0.toNat + c)

/-- One sprite bit drawn: a 0-bit does nothing; a 1-bit over a set cell is a hit, and it flips the cell (R222, R224). -/
def drawBit (bit : Bool) (y : Row) (x : Col) (acc : Display × Bool) : Display × Bool :=
  if bit then (acc.1.flip y x, acc.2 || acc.1.pixel y x) else acc

/-- One sprite byte drawn; bit 7 is column 0 (R223). -/
def drawByte (b : Byte) (y0 x0 : Byte) (r : Nat) (acc : Display × Bool) : Display × Bool :=
  (List.range 8).foldl (fun acc c => drawBit (b.getLsbD (7 - c)) (cellRow y0 r) (cellCol x0 c) acc) acc

/-- N sprite bytes drawn from address `a`, row by row: the buffer and whether there was a collision (R222). -/
def drawSprite (m : Memory) (a : Nat) (y0 x0 : Byte) (n : Nat) (d : Display) : Display × Bool :=
  (List.range n).foldl (fun acc r => drawByte (m.read (a + r)) y0 x0 r acc) (d, false)

/-- `if cfg.draw_on_call = 1 then push_pending <- 1` (R225). -/
def State.requestPush (s : State) : State := if s.cfg.drawOnCall then s.setPushPending true else s

/-- 00E0 (R221). -/
def execClear (s : State) : Host.Outcome State Fault Refusal := .next (s.setDisp Display.off).requestPush

/-- The effect of DXYN once its range is checked: the buffer, then VF last, then the push request (R222). -/
def State.drawn (s : State) (x y : Reg) (n : Fin 16) : State :=
  let r := drawSprite s.mem (s.dataAddr 0) (s.getV y) (s.getV x) n.val s.disp
  ((s.setDisp r.1).setV vf (flagByte r.2)).requestPush

/-- DXYN (R222): `if N > 0 then CheckRange(I, I + N - 1)`, then the drawing. -/
def execDraw (x y : Reg) (n : Fin 16) (s : State) : Host.Outcome State Fault Refusal :=
  if n.val = 0 then .next (s.drawn x y n) else s.withRange (.draw x y n) (n.val - 1) (s.drawn x y n)

end Sys2Proof.Machine
end

