-- ==== Sys2Proof/Machine/KeysTimers.lean ====
section
/-! DEFINITION. The keyboard and timer instructions (44_keys_timers.md R240 to R246). -/

namespace Sys2Proof.Machine

/-- EX9E (R241); KEY_RANGE for a number above 0xF (R240). -/
def execSkipKeyDown (x : Reg) (s : State) : Host.Outcome State Fault Refusal :=
  match keyOf (s.getV x) with
  | some k => .next (s.skipIf (s.getKey k))
  | none => .next (s.raiseIn (.skipKeyDown x) .keyRange ((s.getV x).setWidth 16))

/-- EXA1 (R242); KEY_RANGE for a number above 0xF (R240). -/
def execSkipKeyUp (x : Reg) (s : State) : Host.Outcome State Fault Refusal :=
  match keyOf (s.getV x) with
  | some k => .next (s.skipIf (!s.getKey k))
  | none => .next (s.raiseIn (.skipKeyUp x) .keyRange ((s.getV x).setWidth 16))

/-- FX07 (R243). -/
def execReadDelay (x : Reg) (s : State) : Host.Outcome State Fault Refusal := .next (s.setV x s.dt)

/-- FX0A (R244): V[X] is written when the wait is resolved (60_exceptions.md R283). -/
def execWaitKey (x : Reg) (s : State) : Host.Outcome State Fault Refusal := .next (s.enterWait x)

/-- FX15 (R245). -/
def execWriteDelay (x : Reg) (s : State) : Host.Outcome State Fault Refusal := .next (s.setDT (s.getV x))

/-- FX18 (R246). -/
def execWriteSound (x : Reg) (s : State) : Host.Outcome State Fault Refusal := .next (s.setST (s.getV x))

end Sys2Proof.Machine
end

