-- ==== Sys2Proof/Machine/Boot.lean ====
section
/-! DEFINITION. Reset, load and release (70_reset_and_hazards.md R320 to R329), and CONFIG's bits (10_state.md R44). -/

namespace Sys2Proof.Machine

/-- CONFIG[3:2] (R44); 3 is reserved. -/
def incrementModeOf (n : Nat) : Option IncrementMode :=
  match n with
  | 0 => some .xPlus1
  | 1 => some .x
  | 2 => some .none
  | _ => none

/-- CONFIG[6:5] and CONFIG[8:7] (R44); 3 is reserved. -/
def policyOf (n : Nat) : Option Policy :=
  match n with
  | 0 => some .halt
  | 1 => some .skip
  | 2 => some .ask
  | _ => none

/-- The code of an increment mode (R44). -/
def incrementModeCode (m : IncrementMode) : Nat :=
  match m with
  | .xPlus1 => 0
  | .x => 1
  | .none => 2

/-- The code of a fault policy (R44). -/
def policyCode (p : Policy) : Nat :=
  match p with
  | .halt => 0
  | .skip => 1
  | .ask => 2

/-- The configuration in 9 CONFIG bits; none if a field holds its reserved value (R44). -/
def cfgOfBits (w : BitVec 9) : Option Cfg :=
  match incrementModeOf (w.toNat / 4 % 4), policyOf (w.toNat / 32 % 4), policyOf (w.toNat / 128 % 4) with
  | some m, some u, some k =>
    some { bitwiseQuirk := w.getLsbD 0, shiftQuirk := w.getLsbD 1, incrementMode := m, drawOnCall := w.getLsbD 4,
           unknownOpcodePolicy := u, stackUnderflowPolicy := k }
  | _, _, _ => none

/-- CONFIG's 9 bits (R44). -/
def cfgBits (c : Cfg) : BitVec 9 :=
  BitVec.ofNat 9 (c.bitwiseQuirk.toNat + 2 * c.shiftQuirk.toNat + 4 * incrementModeCode c.incrementMode
    + 16 * c.drawOnCall.toNat + 32 * policyCode c.unknownOpcodePolicy + 128 * policyCode c.stackUnderflowPolicy)

/-- Memory at reset: `FONT` from 0x000 and 0x00 elsewhere (R325, R326). -/
def resetMemory (font : Vector Byte 80) : Memory := Memory.writeBytes [] 0 font.toList

/-- `Reset()` with the configuration inputs `c` (R320, R321): every piece of state takes its reset value (R48) and `rst`
is asserted with no load yet. `FONT` and `STACK_DEPTH` are the machine's own; the pending host events stay. -/
def State.assertReset (s : State) (c : Cfg) : State :=
  { State.reset with
    callStack := { entries := List.replicate s.callStack.depth 0x0000#16, sp := 0 }
    mem       := resetMemory s.font
    cfg       := c
    rst       := .asserted .notCalled
    font      := s.font
    ports     := s.ports
    pending   := s.pending
    stepNo    := s.stepNo }

/-- The address a program image is loaded at, 0x200 (R327). -/
def loadBase : Nat := 0x200

/-- `LoadImage` under an asserted `rst` (R327, R328): an image that does not fit and an unreadable source leave memory
unchanged and mark this reset's load as failed. -/
def State.loadImage (s : State) (r : LoadRequest) : State :=
  match r with
  | .image bytes =>
    if bytes.length + loadBase > memSize then s.setRst (.asserted .failed)
    else (s.setMem (s.mem.writeBytes loadBase bytes)).setRst (.asserted .ok)
  | .unreadable => s.setRst (.asserted .failed)

/-- `on release of rst`: HALTED with LOAD_ERROR if this reset's load failed (R321, R328). -/
def State.releaseReset (s : State) : State :=
  match s.rst with
  | .asserted .failed => (s.halt .loadError).setRst .released
  | .asserted .ok => s.setRst .released
  | .asserted .notCalled => s.setRst .released
  | .released => s

/-- The host asserts `rst` with configuration inputs `w`; a reserved value is refused (R44). -/
def hostAssertReset (w : BitVec 9) (s : State) : Host.Outcome State Fault Refusal :=
  match cfgOfBits w with
  | some c => .next (s.assertReset c)
  | none => .refused .reservedConfig

/-- The host calls LoadImage: only while `rst` is asserted, and once per reset (R327). -/
def hostLoadImage (r : LoadRequest) (s : State) : Host.Outcome State Fault Refusal :=
  match s.rst with
  | .asserted .notCalled => .next (s.loadImage r)
  | .asserted .ok => .refused .loadUnavailable
  | .asserted .failed => .refused .loadUnavailable
  | .released => .refused .loadUnavailable

end Sys2Proof.Machine
end

