-- ==== Sys2Proof/Machine/Scheduler.lean ====
section
/-! DEFINITION. The phases of a scheduling pass before its instruction, the outputs, and the host's status port
(60_exceptions.md R280 to R305; 10_state.md R40). -/

namespace Sys2Proof.Machine

/-- One key event: `keys[k] <- down`, and a key-down that finds WAITING resolves the wait (R282, R283). -/
def State.keyEvent (s : State) (e : KeyEvent) : State :=
  let t := s.setKey e.key e.down
  if e.down && t.runState == .waiting then (t.setV t.waitReg (keyByte e.key)).wake else t

/-- Phase (a): the key events of the pass in arrival order (R282). -/
def State.keyPhase (s : State) : State := s.ports.keyEvents.foldl State.keyEvent s

/-- One timer's countdown: less 1, floor at zero (R285). -/
def countdown (b : Byte) : Byte := if b = 0#8 then 0#8 else b - 1#8

/-- Both timers counted down (R285). -/
def State.countTimers (s : State) : State := (s.setDT (countdown s.dt)).setST (countdown s.st)

/-- Phase (b): on a timer tick, the countdown and, unless `draw_on_call`, the display push (R285; 43_display.md R225). -/
def State.timerPhase (s : State) : State :=
  if s.ports.timerTick then
    if s.cfg.drawOnCall then s.countTimers else s.countTimers.pushDisplay
  else s

/-- The end of phase (d): `if push_pending = 1 then Push(); push_pending <- 0` (R280). -/
def State.finishPush (s : State) : State := if s.pushPending then s.pushDisplay.setPushPending false else s

/-- `sound_active` = (ST != 0) (R293). -/
def State.soundActive (s : State) : Bool := s.st != 0#8

/-- `display_push` (R302). -/
def State.displayPush (s : State) : Bool := s.displayOut.isSome

/-- A snapshot as the 2048 bits of `display_frame`: bit 64*y + x is `disp[y][x]`, so row 0 is the lowest 64 bits (R302). -/
def Display.frame (d : Display) : BitVec 2048 :=
  BitVec.ofNat 2048 (d.toList.foldr (fun row n => 2 ^ 64 * n + row.toNat) 0)

/-- `display_frame`; none when `display_push` = 0, for then it means nothing (R302; log entry 7). -/
def State.displayFrame (s : State) : Option (BitVec 2048) := s.displayOut.map Display.frame

/-- RUN_STATE's code (R41). -/
def runStateCode (r : RunState) : Nat :=
  match r with
  | .running => 0
  | .waiting => 1
  | .halted => 2

/-- HALT_REASON's code (R43). -/
def haltReasonCode (r : HaltReason) : Nat :=
  match r with
  | .none => 0
  | .quit => 1
  | .fault => 2
  | .loadError => 3

/-- FAULT_CAUSE's code (R261). -/
def faultCauseCode (c : FaultCause) : Nat :=
  match c with
  | .none => 0
  | .unknownOpcode => 1
  | .stackUnderflow => 2
  | .stackOverflow => 3
  | .memBoundsFetch => 4
  | .memBoundsData => 5
  | .keyRange => 6

/-- The width of control register CR`n` (R40). -/
def statusWidth (n : Fin 8) : Nat :=
  match n with
  | 0 => 9
  | 1 => 2
  | 2 => 4
  | 3 => 2
  | 4 => 3
  | 5 => 16
  | 6 => 16
  | 7 => 16

/-- The status port: the host reads CR`n`, as an unsigned number, without a side effect (R40, R303). -/
def State.statusRead (s : State) (n : Fin 8) : Nat :=
  match n with
  | 0 => (cfgBits s.cfg).toNat
  | 1 => runStateCode s.runState
  | 2 => s.waitReg.val
  | 3 => haltReasonCode s.haltReason
  | 4 => faultCauseCode s.fault.cause
  | 5 => s.fault.pc.toNat
  | 6 => s.fault.opcode.toNat
  | 7 => s.fault.addr.toNat

end Sys2Proof.Machine
end

