-- ==== Sys2Proof/Machine/Pass.lean ====
section
/-! DEFINITION. Fetching and executing one instruction (30_encoding.md R101, R102), one scheduling pass
(60_exceptions.md R280), and what one host event does to the block. -/

namespace Sys2Proof.Machine

/-- `{mem[A], mem[A+1]}` at A = pc (20_memory.md R63); none when A + 1 is above 0xFFF (30_encoding.md R102). -/
def State.fetchWord (s : State) : Option Word :=
  if s.pc.toNat + 1 > 0xFFF then none
  else some (wordOfBytes (s.mem.read s.pc.toNat) (s.mem.read (s.pc.toNat + 1)))

/-- The record of a fetch fault: pc = A, no word, the first out-of-range byte (R102). -/
def fetchFault (a : Word) : FaultRecord :=
  { cause := .memBoundsFetch, pc := a, opcode := 0x0000#16, addr := BitVec.ofNat 16 (max a.toNat 0x1000) }

/-- The record of an unknown word `w` at A (R101). -/
def unknownFault (a w : Word) : FaultRecord := { cause := .unknownOpcode, pc := a, opcode := w, addr := 0#16 }

/-- `ExecuteOne()` (R101). -/
def executeOne (s : State) : Host.Outcome State Fault Refusal :=
  match s.fetchWord with
  | none => .next (s.raiseFault (fetchFault s.pc))
  | some w =>
    match decodeWord w with
    | .ok i => exec i s.advance
    | .error _ => .next (s.advance.raiseFault (unknownFault s.pc w))

/-- The push after the instruction (R287), on its next state. -/
def afterInstruction (o : Host.Outcome State Fault Refusal) : Host.Outcome State Fault Refusal :=
  match o with
  | .next s => .next s.finishPush
  | .fault f => .fault f
  | .refused r => .refused r

/-- Phases (c) and (d) (R286, R287). -/
def executePhase (s : State) : Host.Outcome State Fault Refusal :=
  if s.runState = .waiting then .next s
  else if s.ports.execTick then afterInstruction (executeOne s)
  else .next s

/-- The quit check after phase (a), then phases (b) to (d) (R284, R285). -/
def afterInput (s : State) : Host.Outcome State Fault Refusal :=
  if s.ports.quit then .next (s.halt .quit) else executePhase s.timerPhase

/-- `Pass` with the inputs `p` (R280, R281). -/
def runPass (p : PassInputs) (s : State) : Host.Outcome State Fault Refusal :=
  let t := (s.setPorts p).clearOutputs
  if t.runState = .halted then .next t else afterInput t.keyPhase

/-- One pass if `rst` is released; while it is asserted no pass runs (70_reset_and_hazards.md R320). -/
def hostPass (p : PassInputs) (s : State) : Host.Outcome State Fault Refusal :=
  match s.rst with
  | .released => runPass p s
  | .asserted _ => .next s

/-- What the host does in this step: the next pending event or, where none is listed, a pass whose inputs are free
(log entry 1). -/
def State.nextEvent (s : State) : HostEvent :=
  match s.pending with
  | [] => .pass (Config.freePassInputs s.stepNo)
  | e :: _ => e

/-- One host event applied to the block. -/
def applyEvent (e : HostEvent) (s : State) : Host.Outcome State Fault Refusal :=
  match e with
  | .pass p => hostPass p s
  | .assertReset w => hostAssertReset w s
  | .loadImage r => hostLoadImage r s
  | .releaseReset => .next s.releaseReset

/-- A pass with an execution slot and no other event; the random byte and the operator's answer are those of `q`. -/
def execOnly (q : PassInputs) : PassInputs :=
  { keyEvents := [], quit := false, timerTick := false, execTick := true, randByte := q.randByte, opChoice := q.opChoice }

/-- Where the next fetch can take place: `pc`, or the reset vector where `pc` cannot be fetched from (R102). -/
def State.fetchableAddr (s : State) : Word := if s.pc.toNat + 1 > 0xFFF then 0x0200#16 else s.pc

/-- The state with the word `w` at the next fetch address and a pass with an execution slot next (log entry 10). -/
def State.placeWord (s : State) (w : Word) : State :=
  { s with
    mem      := s.mem.writeBytes s.fetchableAddr.toNat (bytesOfWord w)
    pc       := s.fetchableAddr
    runState := .running
    rst      := .released
    pending  := .pass (execOnly s.ports) :: s.pending }

end Sys2Proof.Machine
end

