-- ==== Sys2Proof/Machine/Step.lean ====
section
/-! DEFINITION. The step: the host's next event applied to the block (60_exceptions.md R280; log entry 1). -/

namespace Sys2Proof.Machine

/-- One step: one pass (R280), or one act of the host on `rst` or the load port (70_reset_and_hazards.md R320 to R329). -/
def step (s : State) : Host.Outcome State Fault Refusal := applyEvent s.nextEvent s.takeEvent

/-- The low `nbits` bits of `w` stored where the next instruction is fetched, so that the very next step runs exactly
it (log entry 10). -/
def State.withFetchWord (s : State) (nbits w : Nat) : State := s.placeWord (BitVec.ofNat 16 (w % 2 ^ nbits))

end Sys2Proof.Machine
end

