-- ==== Sys2Proof/Safety.lean ====
section
/-! DEFINITION. The terms claims are stated in: the invariant of the machine, what an instruction leaves unchanged, and
the fault, sprite and pass vocabulary of the spec. -/

namespace Sys2Proof.Machine

/-! ## Frames -/

/-- The parts of the state a frame speaks about. `platform` is what no instruction touches at all: the sampled inputs,
the reset line, the font parameter and the pending host events. -/
inductive Part where
  | regs
  | index
  | pc
  | callStack
  | delayTimer
  | soundTimer
  | display
  | keys
  | memory
  | runState
  | waitReg
  | haltReason
  | config
  | faultRecord
  | faultEvent
  | pushPending
  | displayOut
  | platform
  deriving DecidableEq, Repr

/-- A part is the same in both states. Registers, pixels, keys and memory are compared by what is read from them. -/
def Part.Same (p : Part) (s t : State) : Prop :=
  match p with
  | .regs => ∀ r, t.getV r = s.getV r
  | .index => t.i = s.i
  | .pc => t.pc = s.pc
  | .callStack => t.callStack = s.callStack
  | .delayTimer => t.dt = s.dt
  | .soundTimer => t.st = s.st
  | .display => ∀ y x, t.disp.pixel y x = s.disp.pixel y x
  | .keys => ∀ k, t.getKey k = s.getKey k
  | .memory => ∀ a, t.mem.read a = s.mem.read a
  | .runState => t.runState = s.runState
  | .waitReg => t.waitReg = s.waitReg
  | .haltReason => t.haltReason = s.haltReason
  | .config => t.cfg = s.cfg
  | .faultRecord => t.fault = s.fault
  | .faultEvent => t.faultEvent = s.faultEvent
  | .pushPending => t.pushPending = s.pushPending
  | .displayOut => t.displayOut = s.displayOut
  | .platform => t.ports = s.ports ∧ t.rst = s.rst ∧ t.font = s.font ∧ t.pending = s.pending ∧ t.stepNo = s.stepNo

/-- Every part but the listed ones is the same after as before. -/
def UnchangedExcept (parts : List Part) (s t : State) : Prop := ∀ p, p ∉ parts → p.Same s t

/-- Every V register but the listed ones reads the same after as before. -/
def RegsUnchangedExcept (regs : List Reg) (s t : State) : Prop := ∀ r, r ∉ regs → t.getV r = s.getV r

/-! ## Results -/

/-- Instruction `i` is the word `n`, written and read (30_encoding.md R94). -/
def HasWord (i : Instr) (n : Nat) : Prop := (encode i).toNat = n ∧ decodeWord (BitVec.ofNat 16 n) = .ok i

/-- V[X] becomes `r` and nothing else changes. -/
def RegResult (x : Reg) (r : Nat) (s t : State) : Prop :=
  (t.getV x).toNat = r ∧ RegsUnchangedExcept [x] s t ∧ UnchangedExcept [.regs] s t

/-- V[X] becomes `r` and then VF becomes `f`, so that with X = F the flag is what VF holds; nothing else changes
(41_alu.md R151). -/
def FlagResult (x : Reg) (r f : Nat) (s t : State) : Prop :=
  (x ≠ vf → (t.getV x).toNat = r) ∧ (t.getV vf).toNat = f ∧ RegsUnchangedExcept [x, vf] s t ∧ UnchangedExcept [.regs] s t

/-- V[X] becomes `r`; then, with the quirk, VF becomes 0, and without it VF keeps what it holds; nothing else changes
(41_alu.md R155). -/
def BitwiseResult (x : Reg) (r : Byte) (s t : State) : Prop :=
  (x ≠ vf → t.getV x = r) ∧
  t.getV vf = (if s.cfg.bitwiseQuirk = true then 0#8 else if x = vf then r else s.getV vf) ∧
  RegsUnchangedExcept [x, vf] s t ∧ UnchangedExcept [.regs] s t

/-- `pc` moves on by 2 when the condition holds, and nothing else changes (40_control_flow.md R121). -/
def SkipResult (c : Prop) (s t : State) : Prop :=
  (c → t.pc.toNat = (s.pc.toNat + 2) % 65536) ∧ (¬ c → t.pc = s.pc) ∧ UnchangedExcept [.pc] s t

/-- I after FX55 or FX65 with last register X (42_index_memory.md R190). -/
def IndexMoved (x : Reg) (s t : State) : Prop :=
  match s.cfg.incrementMode with
  | .xPlus1 => t.i.toNat = (s.i.toNat + x.val + 1) % 65536
  | .x => t.i.toNat = (s.i.toNat + x.val) % 65536
  | .none => t.i = s.i

/-! ## Faults -/

/-- What a fault of instruction `i` leaves: the state before it but for the fault record with A and W, `fault_event`,
and under HALT the run state and halt reason (60_exceptions.md R262, R267). `pc` keeps A + 2. -/
def Faulted (i : Instr) (cause : FaultCause) (addr : Word) (s t : State) : Prop :=
  t.fault = { cause := cause, pc := s.pc - 2#16, opcode := encode i, addr := addr } ∧ t.faultEvent = true ∧
  UnchangedExcept [.runState, .haltReason, .faultRecord, .faultEvent] s t

/-- The block halted by a fault (R264). -/
def HaltedByFault (t : State) : Prop := t.runState = .halted ∧ t.haltReason = .fault

/-- The block goes on after a fault (R265). -/
def SkippedFault (s t : State) : Prop := t.runState = s.runState ∧ t.haltReason = s.haltReason

/-! ## Sprites -/

/-- The sprite of N bytes at I, drawn at column V[X] and row V[Y], has a 1-bit on the cell (row, col): bit 7 - c of its
byte r lands on ((V[Y] + r) mod 32, (V[X] + c) mod 64) (43_display.md R222, R223). -/
def SpriteCovers (s : State) (x y : Reg) (n : Fin 16) (row : Row) (col : Col) : Prop :=
  ∃ r c : Nat, r < n.val ∧ c < 8 ∧ row.val = ((s.getV y).toNat + r) % 32 ∧ col.val = ((s.getV x).toNat + c) % 64 ∧
    (s.mem.read (s.i.toNat + r)).getLsbD (7 - c) = true

/-! ## Passes -/

/-- The pass of this step has the inputs `p`, and `rst` is released. -/
def PassWith (s : State) (p : PassInputs) : Prop := s.rst = .released ∧ s.nextEvent = .pass p

/-- The state in which the input phase of the pass starts: the event taken, the inputs sampled, the outputs cleared. -/
def State.passStart (s : State) (p : PassInputs) : State := (s.takeEvent.setPorts p).clearOutputs

/-- The state in which phase (d) executes, in a pass without a quit: after phases (a) and (b) (60_exceptions.md R280). -/
def State.slotState (s : State) (p : PassInputs) : State := (s.passStart p).keyPhase.timerPhase

/-- `t` is what phases (a) and (b) of the pass with the inputs `p` make of `s` (60_exceptions.md R280, R282 to R285,
43_display.md R225; decisions D18, D19, D27): keys, registers and run state are those of the end of phase (a), which
changes registers and run state only from WAITING; a tick takes 1 from each timer that is not 0 and, without
`draw_on_call`, presents the display; the inputs are sampled, the other outputs are clear, the event is taken, and
nothing else changes. -/
def AfterInputAndTimers (s : State) (p : PassInputs) (t : State) : Prop :=
  (∀ k, t.getKey k = (s.passStart p).keyPhase.getKey k) ∧ (∀ r, t.getV r = (s.passStart p).keyPhase.getV r) ∧
  t.runState = (s.passStart p).keyPhase.runState ∧
  (s.runState ≠ .waiting → t.runState = s.runState ∧ Part.regs.Same s t) ∧
  t.dt.toNat = s.dt.toNat - p.timerTick.toNat ∧ t.st.toNat = s.st.toNat - p.timerTick.toNat ∧
  t.displayOut = (if p.timerTick = true ∧ s.cfg.drawOnCall = false then some s.disp else none) ∧
  t.faultEvent = false ∧ t.pushPending = false ∧ t.ports = p ∧ t.pending = s.pending.tail ∧ t.rst = s.rst ∧
  t.font = s.font ∧
  UnchangedExcept [.regs, .runState, .delayTimer, .soundTimer, .keys, .faultEvent, .pushPending, .displayOut, .platform]
    s t

/-! ## CONFIG's bits -/

/-- The number `n` codes the policy `q`: 0 = HALT, 1 = SKIP, 2 = ASK (10_state.md R44). -/
def PolicyCode (n : Nat) (q : Policy) : Prop := (n = 0 ↔ q = .halt) ∧ (n = 1 ↔ q = .skip) ∧ (n = 2 ↔ q = .ask)

/-- The nine bits of the number `n` are the configuration `c`, field by field: [0] `bitwise_quirk`, [1] `shift_quirk`,
[3:2] `increment_mode`, [4] `draw_on_call`, [6:5] `unknown_opcode_policy`, [8:7] `stack_underflow_policy`; no field holds
its reserved value 3 (10_state.md R44). -/
def ConfigBits (n : Nat) (c : Cfg) : Prop :=
  n < 512 ∧ (n % 2 = 1 ↔ c.bitwiseQuirk = true) ∧ (n / 2 % 2 = 1 ↔ c.shiftQuirk = true) ∧
  (n / 4 % 4 = 0 ↔ c.incrementMode = .xPlus1) ∧ (n / 4 % 4 = 1 ↔ c.incrementMode = .x) ∧
  (n / 4 % 4 = 2 ↔ c.incrementMode = .none) ∧ (n / 16 % 2 = 1 ↔ c.drawOnCall = true) ∧
  PolicyCode (n / 32 % 4) c.unknownOpcodePolicy ∧ PolicyCode (n / 128 % 4) c.stackUnderflowPolicy

/-! ## The invariant -/

/-- The fault record is one that R261's table allows: per cause, the word and the address recorded. -/
def FaultRecord.Sound (f : FaultRecord) : Prop :=
  match f.cause with
  | .none => f.pc = 0#16 ∧ f.opcode = 0#16 ∧ f.addr = 0#16
  | .unknownOpcode => decodeWord f.opcode = .error (.unknownOpcode f.opcode) ∧ f.addr = 0#16
  | .stackUnderflow => f.opcode = 0x00EE#16 ∧ f.addr = 0#16
  | .stackOverflow => (∃ nnn, decodeWord f.opcode = .ok (.call nnn)) ∧ f.addr = 0#16
  | .memBoundsFetch => f.opcode = 0#16 ∧ 0xFFF ≤ f.pc.toNat ∧ f.addr.toNat = max f.pc.toNat 0x1000
  | .memBoundsData => 0x1000 ≤ f.addr.toNat ∧
      ((∃ x y n, decodeWord f.opcode = .ok (.draw x y n)) ∨ (∃ x, decodeWord f.opcode = .ok (.bcd x)) ∨
        (∃ x, decodeWord f.opcode = .ok (.storeRegs x)) ∨ ∃ x, decodeWord f.opcode = .ok (.loadRegs x))
  | .keyRange => 0x10 ≤ f.addr.toNat ∧ f.addr.toNat ≤ 0xFF ∧
      ((∃ x, decodeWord f.opcode = .ok (.skipKeyDown x)) ∨ ∃ x, decodeWord f.opcode = .ok (.skipKeyUp x))

/-- The largest value `pc` can reach: 0xFF + 0xFFF (30_encoding.md R102). -/
def pcLimit : Nat := 0x10FE

/-- The invariant of the machine: what every state reached from a reset has. -/
structure State.Inv (s : State) : Prop where
  /-- memory is in its canonical form and lists only addresses 0x000 to 0xFFF (20_memory.md R60) -/
  mem_wf       : s.mem.wf = true
  /-- `STACK_DEPTH` is at least 1 (00_scope.md R9) -/
  depth_pos    : 1 ≤ s.callStack.depth
  /-- 0 <= SP <= STACK_DEPTH (10_state.md R28) -/
  sp_le        : s.callStack.sp ≤ s.callStack.depth
  /-- no saved address is above 0x10FE (30_encoding.md R102) -/
  entries_le   : ∀ a ∈ s.callStack.entries, a.toNat ≤ pcLimit
  /-- no reachable pc exceeds 0x10FE (30_encoding.md R102) -/
  pc_le        : s.pc.toNat ≤ pcLimit
  /-- `halt_reason` is NONE exactly when the block is not halted (10_state.md R43) -/
  halt_iff     : s.haltReason = .none ↔ s.runState ≠ .halted
  /-- a block halted by a fault has one in its record (60_exceptions.md R262, R264) -/
  halt_fault   : s.haltReason = .fault → s.fault.cause ≠ .none
  /-- the fault record is one of R261's (10_state.md R45) -/
  fault_sound  : s.fault.Sound
  /-- `fault_event` is shown only with a record (60_exceptions.md R262) -/
  event_fault  : s.faultEvent = true → s.fault.cause ≠ .none
  /-- `push_pending` is set and consumed within one pass (10_state.md R47) -/
  push_clear   : s.pushPending = false
  /-- while `rst` is asserted the block is in its reset mode (70_reset_and_hazards.md R320, R323) -/
  rst_running  : s.rst ≠ .released → s.runState = .running

end Sys2Proof.Machine
end

