-- ==== Sys2Proof/Certificates/Slice0/Obligations.lean ====
section
/-! DEFINITION. The statements for the provers. Each docstring names the rule it formalises; "decision D<n>" marks a
point that the spec itself decides (92_eei_decisions.md). -/

open Sys2Proof Sys2Proof.Machine

/-! ## Encoding -/

/-- 30_encoding.md R92, R94: the decoder reads back every well-formed instruction, with every operand value. -/
def Obligations.DecodeReadsBackEncode : Prop :=
  ∀ i : Instr, WellFormed i = true → decodeWord (encode i) = .ok i

/-- 30_encoding.md R92 to R95: a word that decodes is the encoding of its instruction, which is well-formed. -/
def Obligations.EncodeWritesBackDecode : Prop :=
  ∀ (w : Word) (i : Instr), decodeWord w = .ok i → encode i = w ∧ WellFormed i = true

/-- 30_encoding.md R94, R95: for every word, the decoder's instruction is the first row of the opcode map whose mask and
match select the word, and a word that selects no row decodes to none. -/
def Obligations.DecodeFollowsOpcodeMap : Prop :=
  ∀ w : Word,
    (match decodeWord w with
      | .ok i => some i.mnemonic
      | .error _ => none) = opcodeMapLookup w

/-- 30_encoding.md R96: the unknown words. -/
def Obligations.UnknownWordsAreThoseListed : Prop :=
  ∀ w : Word, decodeWord w = .error (.unknownOpcode w) ↔
    ((w.toNat / 4096 = 0x5 ∧ w.toNat % 16 ≠ 0) ∨
     (w.toNat / 4096 = 0x8 ∧ w.toNat % 16 ∈ [0x8, 0x9, 0xA, 0xB, 0xC, 0xD, 0xF]) ∨
     (w.toNat / 4096 = 0x9 ∧ w.toNat % 16 ≠ 0) ∨
     (w.toNat / 4096 = 0xE ∧ w.toNat % 256 ∉ [0x9E, 0xA1]) ∨
     (w.toNat / 4096 = 0xF ∧ w.toNat % 256 ∉ [0x07, 0x0A, 0x15, 0x18, 0x1E, 0x29, 0x33, 0x55, 0x65]))

/-- 30_encoding.md R94: words written out from the encodings, one per format, and two unknown ones. -/
def Obligations.WordsFromTheEncodingsDecode : Prop :=
  decodeWord 0x00E0#16 = .ok .clear ∧ decodeWord 0x00EE#16 = .ok .ret ∧
  decodeWord 0x0000#16 = .ok (.legacyCall 0x000#12) ∧ decodeWord 0x2ABC#16 = .ok (.call 0xABC#12) ∧
  decodeWord 0x6A5C#16 = .ok (.loadImm 0xA 0x5C#8) ∧ decodeWord 0x82F5#16 = .ok (.sub 0x2 0xF) ∧
  decodeWord 0xD012#16 = .ok (.draw 0x0 0x1 0x2) ∧ decodeWord 0xE4A1#16 = .ok (.skipKeyUp 0x4) ∧
  decodeWord 0xF365#16 = .ok (.loadRegs 0x3) ∧
  decodeWord 0x5121#16 = .error (.unknownOpcode 0x5121#16) ∧ decodeWord 0xF000#16 = .error (.unknownOpcode 0xF000#16)

/-! ## Fetching and the pass -/

/-- 20_memory.md R63: the fetched word is {mem[pc], mem[pc+1]}, the byte at the lower address high. -/
def Obligations.FetchIsBigEndian : Prop :=
  ∀ s : State, s.pc.toNat + 1 ≤ 0xFFF →
    ∃ w : Word, s.fetchWord = some w ∧
      w.toNat = 256 * (s.mem.read s.pc.toNat).toNat + (s.mem.read (s.pc.toNat + 1)).toNat

/-- 30_encoding.md R101, 60_exceptions.md R280, R287: in a pass with an execution slot that is running after phase (a),
the step is the meaning of the instruction whose bytes stand at pc, run in the slot's state with pc advanced by 2, and
then the push after the instruction. The slot's state is running and is what phases (a) and (b) make of the old one, by R282,
R283, R285 and 43_display.md R225 (decisions D18, D19, D27; log entry 17). -/
def Obligations.StepRunsDecodedInstruction : Prop :=
  ∀ (s : State) (p : PassInputs) (i : Instr),
    PassWith s p → (s.passStart p).keyPhase.runState = .running → p.quit = false → p.execTick = true →
    s.pc.toNat + 1 ≤ 0xFFF →
    decodeBytes [s.mem.read s.pc.toNat, s.mem.read (s.pc.toNat + 1)] = .ok (i, []) →
    step s = afterInstruction (exec i (s.slotState p).advance) ∧
    (s.slotState p).advance.pc = s.pc + 2#16 ∧ UnchangedExcept [.pc] (s.slotState p) (s.slotState p).advance ∧
    (s.slotState p).runState = .running ∧ (s.slotState p).rst = .released ∧ AfterInputAndTimers s p (s.slotState p)

/-- Log entry 10: what `withFetchWord` places is what the very next step runs, for every word that decodes. -/
def Obligations.PlacedWordRunsNext : Prop :=
  ∀ (s : State) (w : Nat) (i : Instr), decodeTableWord 16 w = some i →
    ∃ u, step (s.withFetchWord 16 w) = afterInstruction (exec i u) ∧ u.pc = s.fetchableAddr + 2#16 ∧
      (∀ a, a < s.fetchableAddr.toNat ∨ s.fetchableAddr.toNat + 1 < a → u.mem.read a = s.mem.read a) ∧
      UnchangedExcept [.pc, .memory, .runState, .faultEvent, .pushPending, .displayOut, .platform] s u

/-- 30_encoding.md R101, 60_exceptions.md R262 to R266 (decisions D13, D14): an unknown word in an execution slot is
recorded with A and W, pc keeps A + 2, and the block halts or goes on as the policy and the operator's answer say. -/
def Obligations.UnknownWordRaisesFault : Prop :=
  ∀ (s : State) (p : PassInputs) (w : Word),
    PassWith s p → (s.passStart p).keyPhase.runState = .running → p.quit = false → p.execTick = true →
    s.fetchWord = some w → decodeWord w = .error (.unknownOpcode w) →
    ∃ t, step s = .next t ∧
      t.fault = { cause := .unknownOpcode, pc := s.pc, opcode := w, addr := 0x0000#16 } ∧ t.faultEvent = true ∧
      t.pc = s.pc + 2#16 ∧
      ((s.cfg.unknownOpcodePolicy = .halt ∨ (s.cfg.unknownOpcodePolicy = .ask ∧ p.opChoice ≠ 1#2)) → HaltedByFault t) ∧
      ((s.cfg.unknownOpcodePolicy = .skip ∨ (s.cfg.unknownOpcodePolicy = .ask ∧ p.opChoice = 1#2)) →
        SkippedFault (s.slotState p) t) ∧
      UnchangedExcept [.pc, .runState, .haltReason, .faultRecord, .faultEvent] (s.slotState p) t

/-- 30_encoding.md R102 (decision D8): a fetch that needs a byte above 0xFFF halts the block with pc still A. -/
def Obligations.FetchBeyondMemoryHalts : Prop :=
  ∀ (s : State) (p : PassInputs),
    PassWith s p → (s.passStart p).keyPhase.runState = .running → p.quit = false → p.execTick = true →
    0xFFF < s.pc.toNat + 1 →
    ∃ t, step s = .next t ∧ t.fault.cause = .memBoundsFetch ∧ t.fault.pc = s.pc ∧ t.fault.opcode = 0x0000#16 ∧
      t.fault.addr.toNat = max s.pc.toNat 0x1000 ∧ t.faultEvent = true ∧ HaltedByFault t ∧
      UnchangedExcept [.runState, .haltReason, .faultRecord, .faultEvent] (s.slotState p) t

/-- 60_exceptions.md R281 (decision D16): in a pass while HALTED nothing happens, and no push or fault is shown. -/
def Obligations.HaltedPassChangesNothing : Prop :=
  ∀ (s : State) (p : PassInputs), PassWith s p → s.runState = .halted →
    ∃ t, step s = .next t ∧ t.displayOut = none ∧ t.faultEvent = false ∧
      UnchangedExcept [.faultEvent, .pushPending, .displayOut, .platform] s t ∧ t.pushPending = false

/-- 60_exceptions.md R284 (decision D17): quit halts from RUNNING and WAITING after the key events and before the timers
and the instruction, and records no fault. -/
def Obligations.QuitHaltsBeforeTimers : Prop :=
  ∀ (s : State) (p : PassInputs), PassWith s p → s.runState ≠ .halted → p.quit = true →
    ∃ t, step s = .next t ∧ t.runState = .halted ∧ t.haltReason = .quit ∧ t.faultEvent = false ∧ t.displayOut = none ∧
      (∀ k, t.getKey k = (s.passStart p).keyPhase.getKey k) ∧ (∀ r, t.getV r = (s.passStart p).keyPhase.getV r) ∧
      (s.runState = .running → Part.regs.Same s t) ∧
      UnchangedExcept [.regs, .keys, .runState, .haltReason, .faultEvent, .pushPending, .displayOut, .platform] s t

/-- 60_exceptions.md R282 (decision D18): after phase (a) a key's state is its last event's, and a key without an event
keeps its state. -/
def Obligations.KeyShowsItsLastEvent : Prop :=
  ∀ (s : State) (p : PassInputs) (k : Key),
    (s.passStart p).keyPhase.getKey k =
      (match (p.keyEvents.filter fun e => e.key == k).getLast? with
        | some e => e.down
        | none => s.getKey k)

/-- 60_exceptions.md R283 (decision D18): the first key-down of the pass ends a wait, writes its number to V[wait_reg]
and nothing more to the registers; later events of the pass do not. A pass without a key-down ends no wait. -/
def Obligations.FirstKeyDownEndsWait : Prop :=
  ∀ (s : State) (p : PassInputs), s.runState = .waiting →
    (∀ (before after : List KeyEvent) (k : Key), p.keyEvents = before ++ { key := k, down := true } :: after →
      (∀ e ∈ before, e.down = false) →
      (s.passStart p).keyPhase.runState = .running ∧ ((s.passStart p).keyPhase.getV s.waitReg).toNat = k.val ∧
      RegsUnchangedExcept [s.waitReg] s (s.passStart p).keyPhase) ∧
    ((∀ e ∈ p.keyEvents, e.down = false) →
      (s.passStart p).keyPhase.runState = .waiting ∧ RegsUnchangedExcept [] s (s.passStart p).keyPhase)

/-- 60_exceptions.md R286: a pass that is WAITING after phase (a) ends there, whatever `exec_tick` is: no instruction
runs, and nothing of the lost slot is kept. What it leaves is what phases (a) and (b) make of the state, by R280, R282,
R283, R285 and 43_display.md R225 (decisions D18, D19, D27; log entry 17). -/
def Obligations.WaitingPassRunsNoInstruction : Prop :=
  ∀ (s : State) (p : PassInputs), PassWith s p → (s.passStart p).keyPhase.runState = .waiting → p.quit = false →
    ∃ t, step s = .next t ∧ t.runState = .waiting ∧ AfterInputAndTimers s p t ∧
      (s.runState = .waiting → Part.regs.Same s t) ∧
      ∀ (s' : State) (b : Bool), s' = { s with pending := .pass { p with execTick := b } :: s.pending.tail } →
        ∃ t', step s' = .next t' ∧ UnchangedExcept [.platform] t t' ∧ t'.pending = t.pending

/-- 60_exceptions.md R285, R291 (decision D27): the timers in the state the instruction sees; a tick takes 1 from each
timer that is not 0, in RUNNING and WAITING alike. -/
def Obligations.TickCountsTimersDown : Prop :=
  ∀ (s : State) (p : PassInputs),
    (p.timerTick = true → ((s.slotState p).dt.toNat = s.dt.toNat - 1 ∧ (s.slotState p).st.toNat = s.st.toNat - 1)) ∧
    (p.timerTick = false → ((s.slotState p).dt = s.dt ∧ (s.slotState p).st = s.st))

/-- 60_exceptions.md R302, 43_display.md R225 (decision D19). The display outputs: `display_push` is 1 exactly when a
snapshot is presented, and then bit 64*y + x of `display_frame` is its pixel (y, x); that there is no frame otherwise is
the model's choice (log entry 7), for R302 only says that it means nothing then. The push of phase (b), also in front of
an instruction: the state that phases (a) and (b) make, which is the one an instruction sees, presents the display of
before the pass exactly on a timer tick without `draw_on_call` (also R280, R282, R283, R285; decisions D18, D27; log
entry 17). A pass that is neither halted nor quit and has no execution slot ends in that state. -/
def Obligations.TickPushesDisplay : Prop :=
  (∀ s : State,
    (∀ d, s.displayOut = some d → s.displayPush = true ∧
      ∃ f, s.displayFrame = some f ∧ ∀ (y : Row) (x : Col), f.getLsbD (64 * y.val + x.val) = d.pixel y x) ∧
    (s.displayOut = none → s.displayPush = false ∧ s.displayFrame = none)) ∧
  (∀ (s : State) (p : PassInputs), AfterInputAndTimers s p (s.slotState p)) ∧
  ∀ (s : State) (p : PassInputs), PassWith s p → s.runState ≠ .halted → p.quit = false → p.execTick = false →
    ∃ t, step s = .next t ∧ AfterInputAndTimers s p t

/-- 43_display.md R225 (decision D19): under `draw_on_call` a clear or a draw that completes is followed by one push of
the buffer as it stands after it, and a draw that faults by none; without `draw_on_call` neither requests a push. -/
def Obligations.DrawingPushesOnCall : Prop :=
  ∀ (s : State) (x y : Reg) (n : Fin 16), s.pushPending = false →
    (∃ t, afterInstruction (exec .clear s) = .next t ∧ t.pushPending = false ∧
      t.displayOut = (if s.cfg.drawOnCall = true then some t.disp else s.displayOut)) ∧
    ((n.val = 0 ∨ s.dataAddr (n.val - 1) ≤ 0xFFF) →
      ∃ t, afterInstruction (exec (.draw x y n) s) = .next t ∧ t.pushPending = false ∧
        t.displayOut = (if s.cfg.drawOnCall = true then some t.disp else s.displayOut)) ∧
    (n.val ≠ 0 → 0xFFF < s.dataAddr (n.val - 1) →
      ∃ t, afterInstruction (exec (.draw x y n) s) = .next t ∧ t.pushPending = false ∧ t.displayOut = s.displayOut)

/-! ## Control flow -/

/-- 40_control_flow.md R124. -/
def Obligations.JumpSetsPc : Prop :=
  ∀ (nnn : Addr12) (s : State),
    HasWord (.jump nnn) (0x1000 + nnn.toNat) ∧
    ∃ t, exec (.jump nnn) s = .next t ∧ t.pc.toNat = nnn.toNat ∧ UnchangedExcept [.pc] s t ∧
      (t.fetchWord = none ↔ nnn.toNat = 0xFFF)

/-- 40_control_flow.md R130: the target is V[0] + NNN, whatever it is; one of 0xFFF or more cannot be fetched. -/
def Obligations.JumpPlusAddsV0 : Prop :=
  ∀ (nnn : Addr12) (s : State),
    HasWord (.jumpPlus nnn) (0xB000 + nnn.toNat) ∧
    ∃ t, exec (.jumpPlus nnn) s = .next t ∧ t.pc.toNat = (s.getV 0).toNat + nnn.toNat ∧ UnchangedExcept [.pc] s t ∧
      (t.fetchWord = none ↔ 0xFFF ≤ (s.getV 0).toNat + nnn.toNat)

/-- 40_control_flow.md R123: a legacy-call does nothing. -/
def Obligations.LegacyCallDoesNothing : Prop :=
  ∀ (nnn : Addr12) (s : State),
    (nnn.toNat ≠ 0x0E0 → nnn.toNat ≠ 0x0EE → HasWord (.legacyCall nnn) nnn.toNat) ∧ exec (.legacyCall nnn) s = .next s

/-- 40_control_flow.md R125, 60_exceptions.md R261 (decision D5 for the full stack): with room on the call stack, the
return address is stored at stack[SP], SP grows by 1 and pc becomes NNN, and no other entry changes; a call on a full
stack raises STACK_OVERFLOW and halts. -/
def Obligations.CallPushesReturnAddress : Prop :=
  ∀ (nnn : Addr12) (s : State),
    HasWord (.call nnn) (0x2000 + nnn.toNat) ∧
    (s.callStack.sp < s.callStack.depth →
      ∃ t, exec (.call nnn) s = .next t ∧ t.pc.toNat = nnn.toNat ∧ t.callStack.sp = s.callStack.sp + 1 ∧
        t.callStack.depth = s.callStack.depth ∧ t.callStack.entries[s.callStack.sp]? = some s.pc ∧
        (∀ k, k ≠ s.callStack.sp → t.callStack.entries[k]? = s.callStack.entries[k]?) ∧
        UnchangedExcept [.pc, .callStack] s t) ∧
    (s.callStack.sp = s.callStack.depth →
      ∃ t, exec (.call nnn) s = .next t ∧ Faulted (.call nnn) .stackOverflow 0x0000#16 s t ∧ HaltedByFault t)

/-- 40_control_flow.md R122: return takes the top address off the stack into pc; the entries keep their values. -/
def Obligations.ReturnPopsAddress : Prop :=
  ∀ (s : State) (k : Nat) (a : Word), s.callStack.sp = k + 1 → s.callStack.entries[k]? = some a →
    ∃ t, exec .ret s = .next t ∧ t.pc = a ∧ t.callStack.sp = k ∧ t.callStack.entries = s.callStack.entries ∧
      UnchangedExcept [.pc, .callStack] s t

/-- 40_control_flow.md R122, 60_exceptions.md R263 to R266 (decisions D13, D14): return on an empty stack raises
STACK_UNDERFLOW, pc keeps A + 2, and the policy decides between halting and going on. -/
def Obligations.ReturnOnEmptyStackFaults : Prop :=
  ∀ s : State, s.callStack.sp = 0 →
    ∃ t, exec .ret s = .next t ∧ Faulted .ret .stackUnderflow 0x0000#16 s t ∧ (encode .ret).toNat = 0x00EE ∧
      ((s.cfg.stackUnderflowPolicy = .halt ∨ (s.cfg.stackUnderflowPolicy = .ask ∧ s.ports.opChoice ≠ 1#2)) →
        HaltedByFault t) ∧
      ((s.cfg.stackUnderflowPolicy = .skip ∨ (s.cfg.stackUnderflowPolicy = .ask ∧ s.ports.opChoice = 1#2)) →
        SkippedFault s t)

/-- 40_control_flow.md R125, R122: the return that matches a call resumes at the call's A + 2 with the stack depth of
before. -/
def Obligations.ReturnResumesAfterCall : Prop :=
  ∀ (nnn : Addr12) (s : State), s.callStack.sp < s.callStack.depth →
    ∃ t u, exec (.call nnn) s = .next t ∧ exec .ret t = .next u ∧ u.pc = s.pc ∧ u.callStack.sp = s.callStack.sp ∧
      (∀ k, k < s.callStack.sp → u.callStack.entries[k]? = s.callStack.entries[k]?) ∧ UnchangedExcept [.callStack] s u

/-- 40_control_flow.md R126, R127. -/
def Obligations.SkipsOnImmediate : Prop :=
  ∀ (x : Reg) (nn : Byte) (s : State),
    (HasWord (.skipEqImm x nn) (0x3000 + 256 * x.val + nn.toNat) ∧
      ∃ t, exec (.skipEqImm x nn) s = .next t ∧ SkipResult (s.getV x = nn) s t) ∧
    (HasWord (.skipNeqImm x nn) (0x4000 + 256 * x.val + nn.toNat) ∧
      ∃ t, exec (.skipNeqImm x nn) s = .next t ∧ SkipResult (s.getV x ≠ nn) s t)

/-- 40_control_flow.md R128, R129: with a low nibble other than 0 the word is unknown. -/
def Obligations.SkipsOnRegisters : Prop :=
  ∀ (x y : Reg) (s : State),
    (HasWord (.skipEqReg x y) (0x5000 + 256 * x.val + 16 * y.val) ∧
      ∃ t, exec (.skipEqReg x y) s = .next t ∧ SkipResult (s.getV x = s.getV y) s t) ∧
    (HasWord (.skipNeqReg x y) (0x9000 + 256 * x.val + 16 * y.val) ∧
      ∃ t, exec (.skipNeqReg x y) s = .next t ∧ SkipResult (s.getV x ≠ s.getV y) s t) ∧
    ∀ n : Nat, 0 < n → n < 16 →
      (decodeWord (BitVec.ofNat 16 (0x5000 + 256 * x.val + 16 * y.val + n)) =
        .error (.unknownOpcode (BitVec.ofNat 16 (0x5000 + 256 * x.val + 16 * y.val + n)))) ∧
      (decodeWord (BitVec.ofNat 16 (0x9000 + 256 * x.val + 16 * y.val + n)) =
        .error (.unknownOpcode (BitVec.ofNat 16 (0x9000 + 256 * x.val + 16 * y.val + n))))

/-! ## Registers and arithmetic -/

/-- 41_alu.md R152, R153, R154: no flag is written, so VF changes only as the destination. -/
def Obligations.LoadAddAndCopyWriteVx : Prop :=
  ∀ (x y : Reg) (nn : Byte) (s : State),
    (HasWord (.loadImm x nn) (0x6000 + 256 * x.val + nn.toNat) ∧
      ∃ t, exec (.loadImm x nn) s = .next t ∧ RegResult x nn.toNat s t) ∧
    (HasWord (.addImm x nn) (0x7000 + 256 * x.val + nn.toNat) ∧
      ∃ t, exec (.addImm x nn) s = .next t ∧ RegResult x (((s.getV x).toNat + nn.toNat) % 256) s t) ∧
    (HasWord (.copy x y) (0x8000 + 256 * x.val + 16 * y.val) ∧
      ∃ t, exec (.copy x y) s = .next t ∧ RegResult x (s.getV y).toNat s t)

/-- 41_alu.md R155, R156, R157. -/
def Obligations.BitwiseOperations : Prop :=
  ∀ (x y : Reg) (s : State),
    (HasWord (.or x y) (0x8001 + 256 * x.val + 16 * y.val) ∧
      ∃ t, exec (.or x y) s = .next t ∧ BitwiseResult x (s.getV x ||| s.getV y) s t) ∧
    (HasWord (.and x y) (0x8002 + 256 * x.val + 16 * y.val) ∧
      ∃ t, exec (.and x y) s = .next t ∧ BitwiseResult x (s.getV x &&& s.getV y) s t) ∧
    (HasWord (.xor x y) (0x8003 + 256 * x.val + 16 * y.val) ∧
      ∃ t, exec (.xor x y) s = .next t ∧ BitwiseResult x (s.getV x ^^^ s.getV y) s t)

/-- 41_alu.md R158: the sum mod 256, then VF = 1 exactly when the unbounded sum exceeds 255. -/
def Obligations.AddWritesSumAndCarry : Prop :=
  ∀ (x y : Reg) (s : State),
    HasWord (.add x y) (0x8004 + 256 * x.val + 16 * y.val) ∧
    ∃ t, exec (.add x y) s = .next t ∧
      FlagResult x (((s.getV x).toNat + (s.getV y).toNat) % 256)
        (if (s.getV x).toNat + (s.getV y).toNat > 255 then 1 else 0) s t

/-- 41_alu.md R159, R161: the difference mod 256, then VF = 1 exactly when nothing is borrowed; the operands are those of
before the instruction, and with X = F only the flag is written. -/
def Obligations.SubtractionsWriteDifferenceAndNoBorrow : Prop :=
  ∀ (x y : Reg) (s : State),
    (HasWord (.sub x y) (0x8005 + 256 * x.val + 16 * y.val) ∧
      ∃ t, exec (.sub x y) s = .next t ∧
        FlagResult x (((s.getV x).toNat + 256 - (s.getV y).toNat) % 256)
          (if (s.getV x).toNat ≥ (s.getV y).toNat then 1 else 0) s t) ∧
    (HasWord (.subn x y) (0x8007 + 256 * x.val + 16 * y.val) ∧
      ∃ t, exec (.subn x y) s = .next t ∧
        FlagResult x (((s.getV y).toNat + 256 - (s.getV x).toNat) % 256)
          (if (s.getV y).toNat ≥ (s.getV x).toNat then 1 else 0) s t)

/-- 41_alu.md R160, R162: the operand is V[Y] with the quirk and V[X] without; it is shifted by 1, and VF is the bit
shifted out. -/
def Obligations.ShiftsWriteResultAndLostBit : Prop :=
  ∀ (x y : Reg) (s : State) (src : Nat),
    src = (if s.cfg.shiftQuirk = true then (s.getV y).toNat else (s.getV x).toNat) →
    (HasWord (.shr x y) (0x8006 + 256 * x.val + 16 * y.val) ∧
      ∃ t, exec (.shr x y) s = .next t ∧ FlagResult x (src / 2) (src % 2) s t) ∧
    (HasWord (.shl x y) (0x800E + 256 * x.val + 16 * y.val) ∧
      ∃ t, exec (.shl x y) s = .next t ∧ FlagResult x (src * 2 % 256) (src / 128) s t)

/-- 41_alu.md R163 (decision D12): V[X] becomes the pass's random byte masked by NN, whatever that byte is. -/
def Obligations.RandMasksTheRandomByte : Prop :=
  ∀ (x : Reg) (nn : Byte) (s : State),
    ∃ t, exec (.rand x nn) s = .next t ∧ RegResult x (s.ports.randByte.toNat &&& nn.toNat) s t

/-! ## The index register and memory -/

/-- 42_index_memory.md R191, R193: I becomes NNN, or V[X] * 5 without a mask. -/
def Obligations.LoadIAndSpriteAddrWriteI : Prop :=
  ∀ (x : Reg) (nnn : Addr12) (s : State),
    (HasWord (.loadI nnn) (0xA000 + nnn.toNat) ∧
      ∃ t, exec (.loadI nnn) s = .next t ∧ t.i.toNat = nnn.toNat ∧ UnchangedExcept [.index] s t) ∧
    (HasWord (.spriteAddr x) (0xF029 + 256 * x.val) ∧
      ∃ t, exec (.spriteAddr x) s = .next t ∧ t.i.toNat = (s.getV x).toNat * 5 ∧ UnchangedExcept [.index] s t)

/-- 42_index_memory.md R192 (decision D9 for the reduction): I grows by V[X] mod 2^16, and VF is not written. -/
def Obligations.AddIAddsWithoutFlag : Prop :=
  ∀ (x : Reg) (s : State),
    ∃ t, exec (.addI x) s = .next t ∧ t.i.toNat = (s.i.toNat + (s.getV x).toNat) % 65536 ∧ UnchangedExcept [.index] s t

/-- 42_index_memory.md R194: inside memory, FX33 writes the hundreds, tens and ones digits at I, I + 1 and I + 2. -/
def Obligations.BcdStoresDigits : Prop :=
  ∀ (x : Reg) (s : State), s.dataAddr 2 ≤ 0xFFF →
    ∃ t, exec (.bcd x) s = .next t ∧
      (t.mem.read (s.dataAddr 0)).toNat = (s.getV x).toNat / 100 ∧
      (t.mem.read (s.dataAddr 1)).toNat = (s.getV x).toNat / 10 % 10 ∧
      (t.mem.read (s.dataAddr 2)).toNat = (s.getV x).toNat % 10 ∧
      (∀ a, a < s.dataAddr 0 ∨ s.dataAddr 2 < a → t.mem.read a = s.mem.read a) ∧ UnchangedExcept [.memory] s t

/-- 42_index_memory.md R195, R190 (decision D9): inside memory, FX55 writes V[0] to V[X] from I upwards, and I moves as
the increment mode says. -/
def Obligations.StoreRegsStoresTheBlock : Prop :=
  ∀ (x : Reg) (s : State), s.dataAddr x.val ≤ 0xFFF →
    ∃ t, exec (.storeRegs x) s = .next t ∧
      (∀ k : Reg, k.val ≤ x.val → t.mem.read (s.dataAddr k.val) = s.getV k) ∧
      (∀ a, a < s.dataAddr 0 ∨ s.dataAddr x.val < a → t.mem.read a = s.mem.read a) ∧
      IndexMoved x s t ∧ UnchangedExcept [.memory, .index] s t

/-- 42_index_memory.md R196, R190 (decision D9): inside memory, FX65 reads V[0] to V[X] from the old I upwards, and I
moves as the increment mode says. -/
def Obligations.LoadRegsLoadsTheBlock : Prop :=
  ∀ (x : Reg) (s : State), s.dataAddr x.val ≤ 0xFFF →
    ∃ t, exec (.loadRegs x) s = .next t ∧
      (∀ k : Reg, t.getV k = (if k.val ≤ x.val then s.mem.read (s.dataAddr k.val) else s.getV k)) ∧
      IndexMoved x s t ∧ UnchangedExcept [.regs, .index] s t

/-- 42_index_memory.md R196: storing V[0..X] and loading them from the same address gives them back, in every increment
mode and whatever the registers held in between. -/
def Obligations.StoreThenLoadRestoresRegisters : Prop :=
  ∀ (x : Reg) (s : State) (between : Vector Byte 16), s.dataAddr x.val ≤ 0xFFF →
    ∃ t u, exec (.storeRegs x) s = .next t ∧ exec (.loadRegs x) ((t.setRegs between).setI s.i) = .next u ∧
      (∀ k : Reg, k.val ≤ x.val → u.getV k = s.getV k) ∧ IndexMoved x s u

/-- 20_memory.md R67, 60_exceptions.md R267 (decision D8): an access that reaches above 0xFFF writes nothing, raises
MEM_BOUNDS_DATA with the first out-of-range address, and halts. -/
def Obligations.DataAccessBeyondMemoryHalts : Prop :=
  ∀ (x y : Reg) (n : Fin 16) (s : State),
    (0xFFF < s.dataAddr 2 → ∃ t, exec (.bcd x) s = .next t ∧
      Faulted (.bcd x) .memBoundsData (BitVec.ofNat 16 (max (s.dataAddr 0) 0x1000)) s t ∧ HaltedByFault t) ∧
    (0xFFF < s.dataAddr x.val → ∃ t, exec (.storeRegs x) s = .next t ∧
      Faulted (.storeRegs x) .memBoundsData (BitVec.ofNat 16 (max (s.dataAddr 0) 0x1000)) s t ∧ HaltedByFault t) ∧
    (0xFFF < s.dataAddr x.val → ∃ t, exec (.loadRegs x) s = .next t ∧
      Faulted (.loadRegs x) .memBoundsData (BitVec.ofNat 16 (max (s.dataAddr 0) 0x1000)) s t ∧ HaltedByFault t) ∧
    (n.val ≠ 0 → 0xFFF < s.dataAddr (n.val - 1) → ∃ t, exec (.draw x y n) s = .next t ∧
      Faulted (.draw x y n) .memBoundsData (BitVec.ofNat 16 (max (s.dataAddr 0) 0x1000)) s t ∧ HaltedByFault t)

/-! ## The display -/

/-- 43_display.md R221: every pixel goes off, VF is not written, and under `draw_on_call` a push is requested. -/
def Obligations.ClearTurnsPixelsOff : Prop :=
  HasWord .clear 0x00E0 ∧
  ∀ s : State, ∃ t, exec .clear s = .next t ∧ (∀ y x, t.disp.pixel y x = false) ∧
    t.pushPending = (s.cfg.drawOnCall || s.pushPending) ∧ UnchangedExcept [.display, .pushPending] s t

/-- 43_display.md R222, R223, R224 (decisions D8, D20): inside memory, a draw flips exactly the cells its sprite covers,
with the coordinates of before the draw wrapped, and VF is 1 exactly when a covered cell was on. N = 0 covers none. -/
def Obligations.DrawFlipsCoveredCells : Prop :=
  ∀ (x y : Reg) (n : Fin 16) (s : State), (n.val = 0 ∨ s.dataAddr (n.val - 1) ≤ 0xFFF) →
    ∃ t, exec (.draw x y n) s = .next t ∧
      (∀ row col, (t.disp.pixel row col = true) ↔
        ((s.disp.pixel row col = true) ↔ ¬ SpriteCovers s x y n row col)) ∧
      ((∃ row col, SpriteCovers s x y n row col ∧ s.disp.pixel row col = true) → t.getV vf = 1#8) ∧
      ((¬ ∃ row col, SpriteCovers s x y n row col ∧ s.disp.pixel row col = true) → t.getV vf = 0#8) ∧
      RegsUnchangedExcept [vf] s t ∧ t.pushPending = (s.cfg.drawOnCall || s.pushPending) ∧
      UnchangedExcept [.regs, .display, .pushPending] s t

/-- 43_display.md R226, from R222: with neither coordinate register VF, drawing the same sprite twice restores the buffer.
The second draw reports a collision exactly when the first one turned a cell on (log entry 11). -/
def Obligations.DrawingTwiceRestoresDisplay : Prop :=
  ∀ (x y : Reg) (n : Fin 16) (s : State), x ≠ vf → y ≠ vf → (n.val = 0 ∨ s.dataAddr (n.val - 1) ≤ 0xFFF) →
    ∃ t u, exec (.draw x y n) s = .next t ∧ exec (.draw x y n) t = .next u ∧
      (∀ row col, u.disp.pixel row col = s.disp.pixel row col) ∧
      ((u.getV vf = 1#8) ↔ ∃ row col, SpriteCovers s x y n row col ∧ s.disp.pixel row col = false)

/-- The VF clause of 43_display.md R226 as it is written, which R222 does not bear out: over cells that were all on, the
second draw turns them on again and reports no collision (log entry 11). Expected to fail. -/
def Obligations.SecondDrawAlwaysCollides : Prop :=
  ∀ (x y : Reg) (n : Fin 16) (s t u : State), x ≠ vf → y ≠ vf → (n.val = 0 ∨ s.dataAddr (n.val - 1) ≤ 0xFFF) →
    exec (.draw x y n) s = .next t → exec (.draw x y n) t = .next u →
    (∃ r c : Nat, r < n.val ∧ c < 8 ∧ (s.mem.read (s.dataAddr r)).getLsbD c = true) → u.getV vf = 1#8

/-! ## Keys and timers -/

/-- 44_keys_timers.md R241, R242: for a key number up to 0xF, the next instruction is skipped as the key is down or up. -/
def Obligations.SkipsOnKeyState : Prop :=
  ∀ (x : Reg) (k : Key) (s : State), (s.getV x).toNat = k.val →
    (∃ t, exec (.skipKeyDown x) s = .next t ∧ SkipResult (s.getKey k = true) s t) ∧
    (∃ t, exec (.skipKeyUp x) s = .next t ∧ SkipResult (s.getKey k = false) s t)

/-- 44_keys_timers.md R240 (decision D11): a key number above 0xF raises KEY_RANGE with V[X] and halts. -/
def Obligations.KeyNumberOutOfRangeHalts : Prop :=
  ∀ (x : Reg) (s : State), 0xF < (s.getV x).toNat →
    (∃ t, exec (.skipKeyDown x) s = .next t ∧
      Faulted (.skipKeyDown x) .keyRange (BitVec.ofNat 16 (s.getV x).toNat) s t ∧ HaltedByFault t) ∧
    (∃ t, exec (.skipKeyUp x) s = .next t ∧
      Faulted (.skipKeyUp x) .keyRange (BitVec.ofNat 16 (s.getV x).toNat) s t ∧ HaltedByFault t)

/-- 44_keys_timers.md R243, R245, R246. -/
def Obligations.TimerInstructionsMoveBytes : Prop :=
  ∀ (x : Reg) (s : State),
    (HasWord (.readDelay x) (0xF007 + 256 * x.val) ∧
      ∃ t, exec (.readDelay x) s = .next t ∧ RegResult x s.dt.toNat s t) ∧
    (HasWord (.writeDelay x) (0xF015 + 256 * x.val) ∧
      ∃ t, exec (.writeDelay x) s = .next t ∧ t.dt = s.getV x ∧ UnchangedExcept [.delayTimer] s t) ∧
    (HasWord (.writeSound x) (0xF018 + 256 * x.val) ∧
      ∃ t, exec (.writeSound x) s = .next t ∧ t.st = s.getV x ∧ UnchangedExcept [.soundTimer] s t ∧
        (t.soundActive = true ↔ (s.getV x).toNat ≠ 0))

/-- 44_keys_timers.md R244: FX0A enters WAITING with X as the target; V[X] is not written, and pc stays at A + 2. -/
def Obligations.WaitKeyEntersWaiting : Prop :=
  ∀ (x : Reg) (s : State),
    HasWord (.waitKey x) (0xF00A + 256 * x.val) ∧
    ∃ t, exec (.waitKey x) s = .next t ∧ t.runState = .waiting ∧ t.waitReg = x ∧
      UnchangedExcept [.runState, .waitReg] s t

/-! ## The whole machine -/

/-- 10_state.md R21, R27, R29, R30, R31, R32, R40, 20_memory.md R79: which instructions can change which state. The
mnemonics are the opcode table's. -/
def Obligations.OnlyListedInstructionsChangeState : Prop :=
  ∀ (i : Instr) (s t : State), exec i s = .next t →
    (i.mnemonic ∉ ["load-imm", "add-imm", "copy", "or", "and", "xor", "add", "sub", "shr", "subn", "shl", "rand", "draw",
      "read-delay", "load-regs"] → Part.regs.Same s t) ∧
    (i.mnemonic ∉ ["load-I", "add-I", "sprite-addr", "store-regs", "load-regs"] → Part.index.Same s t) ∧
    (i.mnemonic ∉ ["call", "return"] → Part.callStack.Same s t) ∧
    (i.mnemonic ∉ ["write-delay"] → Part.delayTimer.Same s t) ∧
    (i.mnemonic ∉ ["write-sound"] → Part.soundTimer.Same s t) ∧
    (i.mnemonic ∉ ["clear", "draw"] → Part.display.Same s t) ∧
    (i.mnemonic ∉ ["bcd", "store-regs"] → Part.memory.Same s t) ∧
    (i.mnemonic ∉ ["wait-key"] → Part.waitReg.Same s t) ∧
    Part.keys.Same s t ∧ Part.config.Same s t ∧ Part.displayOut.Same s t ∧ Part.platform.Same s t

/-- 40_control_flow.md R120 and R121: an instruction that is no jump, call, return or skip leaves pc at A + 2, the value
it has on entry, also when it faults. -/
def Obligations.OtherInstructionsKeepPc : Prop :=
  ∀ (i : Instr) (s t : State), exec i s = .next t →
    i.mnemonic ∉ ["jump", "call", "return", "jump-plus", "skip-eq-imm", "skip-neq-imm", "skip-eq-reg", "skip-neq-reg",
      "skip-key-down", "skip-key-up"] → t.pc = s.pc

/-- 10_state.md R44, R46, 70_reset_and_hazards.md R324: only an assertion of `rst` changes CONFIG, and then to the
configuration inputs. -/
def Obligations.ConfigChangesOnlyAtReset : Prop :=
  ∀ s t : State, step s = .next t →
    (∃ w, s.nextEvent = .assertReset w ∧ cfgOfBits w = some t.cfg) ∨
    ((∀ w, s.nextEvent ≠ .assertReset w) ∧ t.cfg = s.cfg)

/-- 60_exceptions.md R289: every transition of the run state. A pass goes through the run state after phase (a): a
key-down wakes a WAITING block; quit halts it; an instruction of a running block may enter WAITING by FX0A or fault.
HALTED is left only by reset, and a failed load halts at the release of reset. -/
def Obligations.RunStateMachine : Prop :=
  (∀ (s t : State) (p : PassInputs), PassWith s p → step s = .next t →
    (s.runState = .halted → t.runState = .halted ∧ t.haltReason = s.haltReason) ∧
    (s.runState = .running → (s.passStart p).keyPhase.runState = .running) ∧
    (s.runState = .waiting →
      ((s.passStart p).keyPhase.runState = .running ∧ ∃ e ∈ p.keyEvents, e.down = true) ∨
      ((s.passStart p).keyPhase.runState = .waiting ∧ ∀ e ∈ p.keyEvents, e.down = false)) ∧
    (s.runState ≠ .halted → p.quit = true → t.runState = .halted ∧ t.haltReason = .quit) ∧
    ((s.passStart p).keyPhase.runState = .waiting → p.quit = false →
      t.runState = .waiting ∧ t.waitReg = s.waitReg ∧ t.fault = s.fault ∧ t.faultEvent = false) ∧
    ((s.passStart p).keyPhase.runState = .running → p.quit = false →
      (t.runState = .running ∧ t.haltReason = s.haltReason) ∨
      (t.runState = .waiting ∧ t.haltReason = s.haltReason ∧ p.execTick = true ∧
        ∃ w, s.fetchWord = some w ∧ decodeWord w = .ok (.waitKey t.waitReg)) ∨
      (t.runState = .halted ∧ t.haltReason = .fault ∧ p.execTick = true ∧ t.faultEvent = true))) ∧
  (∀ (s t : State) (w : BitVec 9), s.nextEvent = .assertReset w → step s = .next t → t.runState = .running) ∧
  (∀ (s t : State) (r : LoadRequest), s.nextEvent = .loadImage r → step s = .next t → t.runState = s.runState) ∧
  (∀ s t : State, s.nextEvent = .releaseReset → step s = .next t →
    (s.rst = .asserted .failed → t.runState = .halted ∧ t.haltReason = .loadError) ∧
    (s.rst ≠ .asserted .failed → t.runState = s.runState ∧ t.haltReason = s.haltReason))

/-- The invariant of the machine: every step from a state that has it gives a state that has it (10_state.md R28, R41,
R43, R45, R47; 20_memory.md R60; 30_encoding.md R102; 60_exceptions.md R261). -/
def Obligations.StepKeepsInvariant : Prop :=
  ∀ s t : State, s.Inv → step s = .next t → t.Inv

/-- The state right after reset has the invariant. -/
def Obligations.ResetHasInvariant : Prop := State.reset.Inv

/-- From a state with the invariant the model stops only where it says so: a reserved configuration value (R44) and a
LoadImage outside its one place (R327). Every pass, and so every instruction, completes. -/
def Obligations.StepsStopOnlyAtRefusedHostActs : Prop :=
  ∀ s : State, s.Inv →
    (∃ t, step s = .next t) ∨
    (∃ w, s.nextEvent = .assertReset w ∧ cfgOfBits w = none ∧ step s = .refused .reservedConfig) ∨
    (∃ r, s.nextEvent = .loadImage r ∧ s.rst ≠ .asserted .notCalled ∧ step s = .refused .loadUnavailable)

/-! ## Reset, load and the status port -/

/-- 10_state.md R48, 70_reset_and_hazards.md R321 to R326 (decisions D3, D4, D7; default parameters R9): the state right
after reset, with an empty image. -/
def Obligations.ResetValues : Prop :=
  State.reset.pc = 0x0200#16 ∧ (∀ r, State.reset.getV r = 0#8) ∧ State.reset.i = 0x0000#16 ∧
  State.reset.callStack.sp = 0 ∧ State.reset.callStack.depth = 16 ∧ (∀ a ∈ State.reset.callStack.entries, a = 0x0000#16) ∧
  State.reset.dt = 0#8 ∧ State.reset.st = 0#8 ∧ (∀ y x, State.reset.disp.pixel y x = false) ∧
  (∀ k, State.reset.getKey k = false) ∧
  (∀ k : Fin 80, State.reset.mem.read k.val = State.reset.font[k.val]) ∧
  (∀ a, 0x050 ≤ a → State.reset.mem.read a = 0#8) ∧
  State.reset.runState = .running ∧ State.reset.waitReg = 0 ∧ State.reset.haltReason = .none ∧
  State.reset.pushPending = false ∧
  State.reset.fault = { cause := .none, pc := 0x0000#16, opcode := 0x0000#16, addr := 0x0000#16 } ∧
  State.reset.cfg = Cfg.default

/-- 70_reset_and_hazards.md R320, R321, R324 to R326, 10_state.md R48 (decisions D3, D7): asserting `rst` in any state
gives every piece of state its reset value, CONFIG the configuration inputs, and memory the font and zeros; while `rst`
is asserted no pass runs. The model's choices, not R48's: the outputs `display_push` and `fault_event` are 0 (log entry
7), asserting an asserted `rst` resets again (log entry 2), and the stack depth, the font and the pending events are kept
(log entry 14). -/
def Obligations.AssertingResetRestoresState : Prop :=
  (∀ (s : State) (p : PassInputs) (l : LoadStatus), s.nextEvent = .pass p → s.rst = .asserted l →
    ∃ t, step s = .next t ∧ t.rst = s.rst ∧ t.font = s.font ∧ UnchangedExcept [.platform] s t) ∧
  ∀ (s : State) (w : BitVec 9) (c : Cfg), s.nextEvent = .assertReset w → cfgOfBits w = some c →
    ∃ t, step s = .next t ∧ t.cfg = c ∧ t.rst = .asserted .notCalled ∧
      (∀ k : Fin 80, t.mem.read k.val = s.font[k.val]) ∧ (∀ a, 0x050 ≤ a → t.mem.read a = 0#8) ∧
      t.callStack.sp = 0 ∧ t.callStack.depth = s.callStack.depth ∧ (∀ a ∈ t.callStack.entries, a = 0x0000#16) ∧
      t.font = s.font ∧ t.pending = s.pending.tail ∧
      UnchangedExcept [.config, .memory, .callStack, .platform] State.reset t

/-- 70_reset_and_hazards.md R327 (decision D24): while `rst` is asserted and before another load, an image of at most
3584 bytes is copied to 0x200 and nothing else changes. -/
def Obligations.LoadImageCopiesBytes : Prop :=
  ∀ (s : State) (bytes : List Byte), s.nextEvent = .loadImage (.image bytes) → s.rst = .asserted .notCalled →
    bytes.length ≤ 3584 →
    ∃ t, step s = .next t ∧ t.rst = .asserted .ok ∧
      (∀ k, (h : k < bytes.length) → t.mem.read (0x200 + k) = bytes[k]) ∧
      (∀ a, a < 0x200 ∨ 0x200 + bytes.length ≤ a → t.mem.read a = s.mem.read a) ∧
      t.font = s.font ∧ UnchangedExcept [.memory, .platform] s t

/-- 70_reset_and_hazards.md R328 (decision D24): an image that does not fit, or an unreadable source, leaves memory as it
is, and the release of `rst` then halts the block with LOAD_ERROR; after any other reset the block runs from 0x200. -/
def Obligations.FailedLoadHaltsAtRelease : Prop :=
  (∀ (s : State) (r : LoadRequest), s.nextEvent = .loadImage r → s.rst = .asserted .notCalled →
    (r = .unreadable ∨ ∃ bytes : List Byte, r = .image bytes ∧ 3584 < bytes.length) →
    ∃ t, step s = .next t ∧ t.rst = .asserted .failed ∧ UnchangedExcept [.platform] s t) ∧
  (∀ s : State, s.nextEvent = .releaseReset → s.rst = .asserted .failed →
    ∃ t, step s = .next t ∧ t.rst = .released ∧ t.runState = .halted ∧ t.haltReason = .loadError ∧
      UnchangedExcept [.runState, .haltReason, .platform] s t) ∧
  (∀ s : State, s.nextEvent = .releaseReset → (s.rst = .asserted .ok ∨ s.rst = .asserted .notCalled) →
    ∃ t, step s = .next t ∧ t.rst = .released ∧ UnchangedExcept [.platform] s t)

/-- 10_state.md R40 to R45, 60_exceptions.md R261, R303 (decisions D15, D23): what the status port shows. CR0 is CONFIG
with each field at its bits, CR1 to CR4 are the codes of the run state, the wait target, the halt reason and the fault
cause, CR5 to CR7 the rest of the fault record, each within its width. The configuration inputs are read by the same
bits, and exactly those with a reserved value are no configuration. -/
def Obligations.StatusPortFitsWidths : Prop :=
  (∀ s : State,
    ConfigBits (s.statusRead 0) s.cfg ∧
    s.statusRead 1 = (match s.runState with
      | .running => 0
      | .waiting => 1
      | .halted => 2) ∧
    s.statusRead 2 = s.waitReg.val ∧
    s.statusRead 3 = (match s.haltReason with
      | .none => 0
      | .quit => 1
      | .fault => 2
      | .loadError => 3) ∧
    s.statusRead 4 = (match s.fault.cause with
      | .none => 0
      | .unknownOpcode => 1
      | .stackUnderflow => 2
      | .stackOverflow => 3
      | .memBoundsFetch => 4
      | .memBoundsData => 5
      | .keyRange => 6) ∧
    s.statusRead 5 = s.fault.pc.toNat ∧ s.statusRead 6 = s.fault.opcode.toNat ∧ s.statusRead 7 = s.fault.addr.toNat) ∧
  (∀ (s : State) (n : Fin 8), s.statusRead n < 2 ^ [9, 2, 4, 2, 3, 16, 16, 16][n.val]) ∧
  (∀ c : Cfg, cfgOfBits (cfgBits c) = some c) ∧
  (∀ (w : BitVec 9) (c : Cfg), cfgOfBits w = some c ↔ ConfigBits w.toNat c) ∧
  (∀ w : BitVec 9, cfgOfBits w = none ↔
    (w.toNat / 4 % 4 = 3 ∨ w.toNat / 32 % 4 = 3 ∨ w.toNat / 128 % 4 = 3))
end

