-- ==== Sys2Proof/Laws/Decode.lean ====
section
/-! SUPPORT. The fields of an encoded word are its operands, format by format (30_encoding.md R91, R92), and the fields
of any word, as arithmetic. -/

namespace Sys2Proof

theorem toNat_encodeNNN {op : Nat} (h : op < 16) (nnn : Addr12) :
    (encodeNNN op nnn).toNat = op * 4096 + nnn.toNat := by
  have := nnn.isLt
  simp only [encodeNNN, BitVec.toNat_ofNat]; omega

theorem toNat_encodeXNN {op : Nat} (h : op < 16) (x : Reg) (nn : Byte) :
    (encodeXNN op x nn).toNat = op * 4096 + x.val * 256 + nn.toNat := by
  have := nn.isLt
  have := x.isLt
  simp only [encodeXNN, BitVec.toNat_ofNat]; omega

theorem toNat_encodeXYN {op : Nat} (h : op < 16) (x y : Reg) (n : Fin 16) :
    (encodeXYN op x y n).toNat = op * 4096 + x.val * 256 + y.val * 16 + n.val := by
  have := x.isLt
  have := y.isLt
  have := n.isLt
  simp only [encodeXYN, BitVec.toNat_ofNat]; omega

/-- The primary opcode W[15:12] is the word divided by 4096. -/
theorem field_op (w : Word) : field w 15 12 = w.toNat / 4096 := by
  have := w.isLt
  simp only [field]; omega

theorem field_low4 (w : Word) : field w 3 0 = w.toNat % 16 := by simp [field]

theorem field_low8 (w : Word) : field w 7 0 = w.toNat % 256 := by simp [field]

theorem fieldX_val (w : Word) : (fieldX w).val = w.toNat / 256 % 16 := by simp [fieldX, field, Fin.ofNat]

theorem fieldY_val (w : Word) : (fieldY w).val = w.toNat / 16 % 16 := by simp [fieldY, field, Fin.ofNat]

theorem fieldN_val (w : Word) : (fieldN w).val = w.toNat % 16 := by simp [fieldN, field, Fin.ofNat]

theorem fieldNN_toNat (w : Word) : (fieldNN w).toNat = w.toNat % 256 := by simp [fieldNN, field]

theorem fieldNNN_toNat (w : Word) : (fieldNNN w).toNat = w.toNat % 4096 := by simp [fieldNNN, field]

/-- The word of two bytes is 256 times the byte at the lower address plus the other (20_memory.md R63). -/
theorem wordOfBytes_toNat (hi lo : Byte) : (wordOfBytes hi lo).toNat = 256 * hi.toNat + lo.toNat := by
  have := lo.isLt
  rw [wordOfBytes, BitVec.toNat_append, ← Nat.shiftLeft_add_eq_or_of_lt this, Nat.shiftLeft_eq]
  omega

/-- Laying a word out in memory and reading it back gives the word. -/
theorem wordOfBytes_bytesOfWord (w : Word) :
    wordOfBytes (BitVec.ofNat 8 (w.toNat / 256)) (BitVec.ofNat 8 w.toNat) = w := by
  have := w.isLt
  apply BitVec.eq_of_toNat_eq
  rw [wordOfBytes_toNat, BitVec.toNat_ofNat, BitVec.toNat_ofNat]
  omega

end Sys2Proof
end

