-- ==== Sys2Proof/Laws/State.lean ====
section
/-! SUPPORT. One lemma per field per update of `State`, so that no proof unfolds a record update. -/

namespace Sys2Proof.Machine

section Updates

variable (s : State)

/-! ### State.setV -/

@[simp] theorem State.setV_v (x : Reg) (b : Byte) : (s.setV x b).v = s.v.set x.val b x.isLt := rfl
@[simp] theorem State.setV_i (x : Reg) (b : Byte) : (s.setV x b).i = s.i := rfl
@[simp] theorem State.setV_pc (x : Reg) (b : Byte) : (s.setV x b).pc = s.pc := rfl
@[simp] theorem State.setV_callStack (x : Reg) (b : Byte) : (s.setV x b).callStack = s.callStack := rfl
@[simp] theorem State.setV_dt (x : Reg) (b : Byte) : (s.setV x b).dt = s.dt := rfl
@[simp] theorem State.setV_st (x : Reg) (b : Byte) : (s.setV x b).st = s.st := rfl
@[simp] theorem State.setV_disp (x : Reg) (b : Byte) : (s.setV x b).disp = s.disp := rfl
@[simp] theorem State.setV_keys (x : Reg) (b : Byte) : (s.setV x b).keys = s.keys := rfl
@[simp] theorem State.setV_mem (x : Reg) (b : Byte) : (s.setV x b).mem = s.mem := rfl
@[simp] theorem State.setV_runState (x : Reg) (b : Byte) : (s.setV x b).runState = s.runState := rfl
@[simp] theorem State.setV_waitReg (x : Reg) (b : Byte) : (s.setV x b).waitReg = s.waitReg := rfl
@[simp] theorem State.setV_haltReason (x : Reg) (b : Byte) : (s.setV x b).haltReason = s.haltReason := rfl
@[simp] theorem State.setV_cfg (x : Reg) (b : Byte) : (s.setV x b).cfg = s.cfg := rfl
@[simp] theorem State.setV_fault (x : Reg) (b : Byte) : (s.setV x b).fault = s.fault := rfl
@[simp] theorem State.setV_pushPending (x : Reg) (b : Byte) : (s.setV x b).pushPending = s.pushPending := rfl
@[simp] theorem State.setV_displayOut (x : Reg) (b : Byte) : (s.setV x b).displayOut = s.displayOut := rfl
@[simp] theorem State.setV_faultEvent (x : Reg) (b : Byte) : (s.setV x b).faultEvent = s.faultEvent := rfl
@[simp] theorem State.setV_ports (x : Reg) (b : Byte) : (s.setV x b).ports = s.ports := rfl
@[simp] theorem State.setV_rst (x : Reg) (b : Byte) : (s.setV x b).rst = s.rst := rfl
@[simp] theorem State.setV_font (x : Reg) (b : Byte) : (s.setV x b).font = s.font := rfl
@[simp] theorem State.setV_pending (x : Reg) (b : Byte) : (s.setV x b).pending = s.pending := rfl
@[simp] theorem State.setV_stepNo (x : Reg) (b : Byte) : (s.setV x b).stepNo = s.stepNo := rfl
@[simp] theorem State.setV_getKey (x : Reg) (b : Byte) (q : Key) : (s.setV x b).getKey q = s.getKey q := rfl

/-! ### State.setRegs -/

@[simp] theorem State.setRegs_v (w : Vector Byte 16) : (s.setRegs w).v = w := rfl
@[simp] theorem State.setRegs_i (w : Vector Byte 16) : (s.setRegs w).i = s.i := rfl
@[simp] theorem State.setRegs_pc (w : Vector Byte 16) : (s.setRegs w).pc = s.pc := rfl
@[simp] theorem State.setRegs_callStack (w : Vector Byte 16) : (s.setRegs w).callStack = s.callStack := rfl
@[simp] theorem State.setRegs_dt (w : Vector Byte 16) : (s.setRegs w).dt = s.dt := rfl
@[simp] theorem State.setRegs_st (w : Vector Byte 16) : (s.setRegs w).st = s.st := rfl
@[simp] theorem State.setRegs_disp (w : Vector Byte 16) : (s.setRegs w).disp = s.disp := rfl
@[simp] theorem State.setRegs_keys (w : Vector Byte 16) : (s.setRegs w).keys = s.keys := rfl
@[simp] theorem State.setRegs_mem (w : Vector Byte 16) : (s.setRegs w).mem = s.mem := rfl
@[simp] theorem State.setRegs_runState (w : Vector Byte 16) : (s.setRegs w).runState = s.runState := rfl
@[simp] theorem State.setRegs_waitReg (w : Vector Byte 16) : (s.setRegs w).waitReg = s.waitReg := rfl
@[simp] theorem State.setRegs_haltReason (w : Vector Byte 16) : (s.setRegs w).haltReason = s.haltReason := rfl
@[simp] theorem State.setRegs_cfg (w : Vector Byte 16) : (s.setRegs w).cfg = s.cfg := rfl
@[simp] theorem State.setRegs_fault (w : Vector Byte 16) : (s.setRegs w).fault = s.fault := rfl
@[simp] theorem State.setRegs_pushPending (w : Vector Byte 16) : (s.setRegs w).pushPending = s.pushPending := rfl
@[simp] theorem State.setRegs_displayOut (w : Vector Byte 16) : (s.setRegs w).displayOut = s.displayOut := rfl
@[simp] theorem State.setRegs_faultEvent (w : Vector Byte 16) : (s.setRegs w).faultEvent = s.faultEvent := rfl
@[simp] theorem State.setRegs_ports (w : Vector Byte 16) : (s.setRegs w).ports = s.ports := rfl
@[simp] theorem State.setRegs_rst (w : Vector Byte 16) : (s.setRegs w).rst = s.rst := rfl
@[simp] theorem State.setRegs_font (w : Vector Byte 16) : (s.setRegs w).font = s.font := rfl
@[simp] theorem State.setRegs_pending (w : Vector Byte 16) : (s.setRegs w).pending = s.pending := rfl
@[simp] theorem State.setRegs_stepNo (w : Vector Byte 16) : (s.setRegs w).stepNo = s.stepNo := rfl
@[simp] theorem State.setRegs_getKey (w : Vector Byte 16) (q : Key) : (s.setRegs w).getKey q = s.getKey q := rfl

/-! ### State.setI -/

@[simp] theorem State.setI_v (a : Word) : (s.setI a).v = s.v := rfl
@[simp] theorem State.setI_i (a : Word) : (s.setI a).i = a := rfl
@[simp] theorem State.setI_pc (a : Word) : (s.setI a).pc = s.pc := rfl
@[simp] theorem State.setI_callStack (a : Word) : (s.setI a).callStack = s.callStack := rfl
@[simp] theorem State.setI_dt (a : Word) : (s.setI a).dt = s.dt := rfl
@[simp] theorem State.setI_st (a : Word) : (s.setI a).st = s.st := rfl
@[simp] theorem State.setI_disp (a : Word) : (s.setI a).disp = s.disp := rfl
@[simp] theorem State.setI_keys (a : Word) : (s.setI a).keys = s.keys := rfl
@[simp] theorem State.setI_mem (a : Word) : (s.setI a).mem = s.mem := rfl
@[simp] theorem State.setI_runState (a : Word) : (s.setI a).runState = s.runState := rfl
@[simp] theorem State.setI_waitReg (a : Word) : (s.setI a).waitReg = s.waitReg := rfl
@[simp] theorem State.setI_haltReason (a : Word) : (s.setI a).haltReason = s.haltReason := rfl
@[simp] theorem State.setI_cfg (a : Word) : (s.setI a).cfg = s.cfg := rfl
@[simp] theorem State.setI_fault (a : Word) : (s.setI a).fault = s.fault := rfl
@[simp] theorem State.setI_pushPending (a : Word) : (s.setI a).pushPending = s.pushPending := rfl
@[simp] theorem State.setI_displayOut (a : Word) : (s.setI a).displayOut = s.displayOut := rfl
@[simp] theorem State.setI_faultEvent (a : Word) : (s.setI a).faultEvent = s.faultEvent := rfl
@[simp] theorem State.setI_ports (a : Word) : (s.setI a).ports = s.ports := rfl
@[simp] theorem State.setI_rst (a : Word) : (s.setI a).rst = s.rst := rfl
@[simp] theorem State.setI_font (a : Word) : (s.setI a).font = s.font := rfl
@[simp] theorem State.setI_pending (a : Word) : (s.setI a).pending = s.pending := rfl
@[simp] theorem State.setI_stepNo (a : Word) : (s.setI a).stepNo = s.stepNo := rfl
@[simp] theorem State.setI_getV (a : Word) (q : Reg) : (s.setI a).getV q = s.getV q := rfl
@[simp] theorem State.setI_getKey (a : Word) (q : Key) : (s.setI a).getKey q = s.getKey q := rfl

/-! ### State.setPc -/

@[simp] theorem State.setPc_v (a : Word) : (s.setPc a).v = s.v := rfl
@[simp] theorem State.setPc_i (a : Word) : (s.setPc a).i = s.i := rfl
@[simp] theorem State.setPc_pc (a : Word) : (s.setPc a).pc = a := rfl
@[simp] theorem State.setPc_callStack (a : Word) : (s.setPc a).callStack = s.callStack := rfl
@[simp] theorem State.setPc_dt (a : Word) : (s.setPc a).dt = s.dt := rfl
@[simp] theorem State.setPc_st (a : Word) : (s.setPc a).st = s.st := rfl
@[simp] theorem State.setPc_disp (a : Word) : (s.setPc a).disp = s.disp := rfl
@[simp] theorem State.setPc_keys (a : Word) : (s.setPc a).keys = s.keys := rfl
@[simp] theorem State.setPc_mem (a : Word) : (s.setPc a).mem = s.mem := rfl
@[simp] theorem State.setPc_runState (a : Word) : (s.setPc a).runState = s.runState := rfl
@[simp] theorem State.setPc_waitReg (a : Word) : (s.setPc a).waitReg = s.waitReg := rfl
@[simp] theorem State.setPc_haltReason (a : Word) : (s.setPc a).haltReason = s.haltReason := rfl
@[simp] theorem State.setPc_cfg (a : Word) : (s.setPc a).cfg = s.cfg := rfl
@[simp] theorem State.setPc_fault (a : Word) : (s.setPc a).fault = s.fault := rfl
@[simp] theorem State.setPc_pushPending (a : Word) : (s.setPc a).pushPending = s.pushPending := rfl
@[simp] theorem State.setPc_displayOut (a : Word) : (s.setPc a).displayOut = s.displayOut := rfl
@[simp] theorem State.setPc_faultEvent (a : Word) : (s.setPc a).faultEvent = s.faultEvent := rfl
@[simp] theorem State.setPc_ports (a : Word) : (s.setPc a).ports = s.ports := rfl
@[simp] theorem State.setPc_rst (a : Word) : (s.setPc a).rst = s.rst := rfl
@[simp] theorem State.setPc_font (a : Word) : (s.setPc a).font = s.font := rfl
@[simp] theorem State.setPc_pending (a : Word) : (s.setPc a).pending = s.pending := rfl
@[simp] theorem State.setPc_stepNo (a : Word) : (s.setPc a).stepNo = s.stepNo := rfl
@[simp] theorem State.setPc_getV (a : Word) (q : Reg) : (s.setPc a).getV q = s.getV q := rfl
@[simp] theorem State.setPc_getKey (a : Word) (q : Key) : (s.setPc a).getKey q = s.getKey q := rfl

/-! ### State.setCallStack -/

@[simp] theorem State.setCallStack_v (c : CallStack) : (s.setCallStack c).v = s.v := rfl
@[simp] theorem State.setCallStack_i (c : CallStack) : (s.setCallStack c).i = s.i := rfl
@[simp] theorem State.setCallStack_pc (c : CallStack) : (s.setCallStack c).pc = s.pc := rfl
@[simp] theorem State.setCallStack_callStack (c : CallStack) : (s.setCallStack c).callStack = c := rfl
@[simp] theorem State.setCallStack_dt (c : CallStack) : (s.setCallStack c).dt = s.dt := rfl
@[simp] theorem State.setCallStack_st (c : CallStack) : (s.setCallStack c).st = s.st := rfl
@[simp] theorem State.setCallStack_disp (c : CallStack) : (s.setCallStack c).disp = s.disp := rfl
@[simp] theorem State.setCallStack_keys (c : CallStack) : (s.setCallStack c).keys = s.keys := rfl
@[simp] theorem State.setCallStack_mem (c : CallStack) : (s.setCallStack c).mem = s.mem := rfl
@[simp] theorem State.setCallStack_runState (c : CallStack) : (s.setCallStack c).runState = s.runState := rfl
@[simp] theorem State.setCallStack_waitReg (c : CallStack) : (s.setCallStack c).waitReg = s.waitReg := rfl
@[simp] theorem State.setCallStack_haltReason (c : CallStack) : (s.setCallStack c).haltReason = s.haltReason := rfl
@[simp] theorem State.setCallStack_cfg (c : CallStack) : (s.setCallStack c).cfg = s.cfg := rfl
@[simp] theorem State.setCallStack_fault (c : CallStack) : (s.setCallStack c).fault = s.fault := rfl
@[simp] theorem State.setCallStack_pushPending (c : CallStack) : (s.setCallStack c).pushPending = s.pushPending := rfl
@[simp] theorem State.setCallStack_displayOut (c : CallStack) : (s.setCallStack c).displayOut = s.displayOut := rfl
@[simp] theorem State.setCallStack_faultEvent (c : CallStack) : (s.setCallStack c).faultEvent = s.faultEvent := rfl
@[simp] theorem State.setCallStack_ports (c : CallStack) : (s.setCallStack c).ports = s.ports := rfl
@[simp] theorem State.setCallStack_rst (c : CallStack) : (s.setCallStack c).rst = s.rst := rfl
@[simp] theorem State.setCallStack_font (c : CallStack) : (s.setCallStack c).font = s.font := rfl
@[simp] theorem State.setCallStack_pending (c : CallStack) : (s.setCallStack c).pending = s.pending := rfl
@[simp] theorem State.setCallStack_stepNo (c : CallStack) : (s.setCallStack c).stepNo = s.stepNo := rfl
@[simp] theorem State.setCallStack_getV (c : CallStack) (q : Reg) : (s.setCallStack c).getV q = s.getV q := rfl
@[simp] theorem State.setCallStack_getKey (c : CallStack) (q : Key) : (s.setCallStack c).getKey q = s.getKey q := rfl

/-! ### State.setDT -/

@[simp] theorem State.setDT_v (b : Byte) : (s.setDT b).v = s.v := rfl
@[simp] theorem State.setDT_i (b : Byte) : (s.setDT b).i = s.i := rfl
@[simp] theorem State.setDT_pc (b : Byte) : (s.setDT b).pc = s.pc := rfl
@[simp] theorem State.setDT_callStack (b : Byte) : (s.setDT b).callStack = s.callStack := rfl
@[simp] theorem State.setDT_dt (b : Byte) : (s.setDT b).dt = b := rfl
@[simp] theorem State.setDT_st (b : Byte) : (s.setDT b).st = s.st := rfl
@[simp] theorem State.setDT_disp (b : Byte) : (s.setDT b).disp = s.disp := rfl
@[simp] theorem State.setDT_keys (b : Byte) : (s.setDT b).keys = s.keys := rfl
@[simp] theorem State.setDT_mem (b : Byte) : (s.setDT b).mem = s.mem := rfl
@[simp] theorem State.setDT_runState (b : Byte) : (s.setDT b).runState = s.runState := rfl
@[simp] theorem State.setDT_waitReg (b : Byte) : (s.setDT b).waitReg = s.waitReg := rfl
@[simp] theorem State.setDT_haltReason (b : Byte) : (s.setDT b).haltReason = s.haltReason := rfl
@[simp] theorem State.setDT_cfg (b : Byte) : (s.setDT b).cfg = s.cfg := rfl
@[simp] theorem State.setDT_fault (b : Byte) : (s.setDT b).fault = s.fault := rfl
@[simp] theorem State.setDT_pushPending (b : Byte) : (s.setDT b).pushPending = s.pushPending := rfl
@[simp] theorem State.setDT_displayOut (b : Byte) : (s.setDT b).displayOut = s.displayOut := rfl
@[simp] theorem State.setDT_faultEvent (b : Byte) : (s.setDT b).faultEvent = s.faultEvent := rfl
@[simp] theorem State.setDT_ports (b : Byte) : (s.setDT b).ports = s.ports := rfl
@[simp] theorem State.setDT_rst (b : Byte) : (s.setDT b).rst = s.rst := rfl
@[simp] theorem State.setDT_font (b : Byte) : (s.setDT b).font = s.font := rfl
@[simp] theorem State.setDT_pending (b : Byte) : (s.setDT b).pending = s.pending := rfl
@[simp] theorem State.setDT_stepNo (b : Byte) : (s.setDT b).stepNo = s.stepNo := rfl
@[simp] theorem State.setDT_getV (b : Byte) (q : Reg) : (s.setDT b).getV q = s.getV q := rfl
@[simp] theorem State.setDT_getKey (b : Byte) (q : Key) : (s.setDT b).getKey q = s.getKey q := rfl

/-! ### State.setST -/

@[simp] theorem State.setST_v (b : Byte) : (s.setST b).v = s.v := rfl
@[simp] theorem State.setST_i (b : Byte) : (s.setST b).i = s.i := rfl
@[simp] theorem State.setST_pc (b : Byte) : (s.setST b).pc = s.pc := rfl
@[simp] theorem State.setST_callStack (b : Byte) : (s.setST b).callStack = s.callStack := rfl
@[simp] theorem State.setST_dt (b : Byte) : (s.setST b).dt = s.dt := rfl
@[simp] theorem State.setST_st (b : Byte) : (s.setST b).st = b := rfl
@[simp] theorem State.setST_disp (b : Byte) : (s.setST b).disp = s.disp := rfl
@[simp] theorem State.setST_keys (b : Byte) : (s.setST b).keys = s.keys := rfl
@[simp] theorem State.setST_mem (b : Byte) : (s.setST b).mem = s.mem := rfl
@[simp] theorem State.setST_runState (b : Byte) : (s.setST b).runState = s.runState := rfl
@[simp] theorem State.setST_waitReg (b : Byte) : (s.setST b).waitReg = s.waitReg := rfl
@[simp] theorem State.setST_haltReason (b : Byte) : (s.setST b).haltReason = s.haltReason := rfl
@[simp] theorem State.setST_cfg (b : Byte) : (s.setST b).cfg = s.cfg := rfl
@[simp] theorem State.setST_fault (b : Byte) : (s.setST b).fault = s.fault := rfl
@[simp] theorem State.setST_pushPending (b : Byte) : (s.setST b).pushPending = s.pushPending := rfl
@[simp] theorem State.setST_displayOut (b : Byte) : (s.setST b).displayOut = s.displayOut := rfl
@[simp] theorem State.setST_faultEvent (b : Byte) : (s.setST b).faultEvent = s.faultEvent := rfl
@[simp] theorem State.setST_ports (b : Byte) : (s.setST b).ports = s.ports := rfl
@[simp] theorem State.setST_rst (b : Byte) : (s.setST b).rst = s.rst := rfl
@[simp] theorem State.setST_font (b : Byte) : (s.setST b).font = s.font := rfl
@[simp] theorem State.setST_pending (b : Byte) : (s.setST b).pending = s.pending := rfl
@[simp] theorem State.setST_stepNo (b : Byte) : (s.setST b).stepNo = s.stepNo := rfl
@[simp] theorem State.setST_getV (b : Byte) (q : Reg) : (s.setST b).getV q = s.getV q := rfl
@[simp] theorem State.setST_getKey (b : Byte) (q : Key) : (s.setST b).getKey q = s.getKey q := rfl

/-! ### State.setDisp -/

@[simp] theorem State.setDisp_v (d : Display) : (s.setDisp d).v = s.v := rfl
@[simp] theorem State.setDisp_i (d : Display) : (s.setDisp d).i = s.i := rfl
@[simp] theorem State.setDisp_pc (d : Display) : (s.setDisp d).pc = s.pc := rfl
@[simp] theorem State.setDisp_callStack (d : Display) : (s.setDisp d).callStack = s.callStack := rfl
@[simp] theorem State.setDisp_dt (d : Display) : (s.setDisp d).dt = s.dt := rfl
@[simp] theorem State.setDisp_st (d : Display) : (s.setDisp d).st = s.st := rfl
@[simp] theorem State.setDisp_disp (d : Display) : (s.setDisp d).disp = d := rfl
@[simp] theorem State.setDisp_keys (d : Display) : (s.setDisp d).keys = s.keys := rfl
@[simp] theorem State.setDisp_mem (d : Display) : (s.setDisp d).mem = s.mem := rfl
@[simp] theorem State.setDisp_runState (d : Display) : (s.setDisp d).runState = s.runState := rfl
@[simp] theorem State.setDisp_waitReg (d : Display) : (s.setDisp d).waitReg = s.waitReg := rfl
@[simp] theorem State.setDisp_haltReason (d : Display) : (s.setDisp d).haltReason = s.haltReason := rfl
@[simp] theorem State.setDisp_cfg (d : Display) : (s.setDisp d).cfg = s.cfg := rfl
@[simp] theorem State.setDisp_fault (d : Display) : (s.setDisp d).fault = s.fault := rfl
@[simp] theorem State.setDisp_pushPending (d : Display) : (s.setDisp d).pushPending = s.pushPending := rfl
@[simp] theorem State.setDisp_displayOut (d : Display) : (s.setDisp d).displayOut = s.displayOut := rfl
@[simp] theorem State.setDisp_faultEvent (d : Display) : (s.setDisp d).faultEvent = s.faultEvent := rfl
@[simp] theorem State.setDisp_ports (d : Display) : (s.setDisp d).ports = s.ports := rfl
@[simp] theorem State.setDisp_rst (d : Display) : (s.setDisp d).rst = s.rst := rfl
@[simp] theorem State.setDisp_font (d : Display) : (s.setDisp d).font = s.font := rfl
@[simp] theorem State.setDisp_pending (d : Display) : (s.setDisp d).pending = s.pending := rfl
@[simp] theorem State.setDisp_stepNo (d : Display) : (s.setDisp d).stepNo = s.stepNo := rfl
@[simp] theorem State.setDisp_getV (d : Display) (q : Reg) : (s.setDisp d).getV q = s.getV q := rfl
@[simp] theorem State.setDisp_getKey (d : Display) (q : Key) : (s.setDisp d).getKey q = s.getKey q := rfl

/-! ### State.setKey -/

@[simp] theorem State.setKey_v (k : Key) (d : Bool) : (s.setKey k d).v = s.v := rfl
@[simp] theorem State.setKey_i (k : Key) (d : Bool) : (s.setKey k d).i = s.i := rfl
@[simp] theorem State.setKey_pc (k : Key) (d : Bool) : (s.setKey k d).pc = s.pc := rfl
@[simp] theorem State.setKey_callStack (k : Key) (d : Bool) : (s.setKey k d).callStack = s.callStack := rfl
@[simp] theorem State.setKey_dt (k : Key) (d : Bool) : (s.setKey k d).dt = s.dt := rfl
@[simp] theorem State.setKey_st (k : Key) (d : Bool) : (s.setKey k d).st = s.st := rfl
@[simp] theorem State.setKey_disp (k : Key) (d : Bool) : (s.setKey k d).disp = s.disp := rfl
@[simp] theorem State.setKey_keys (k : Key) (d : Bool) : (s.setKey k d).keys = s.keys.set k.val d k.isLt := rfl
@[simp] theorem State.setKey_mem (k : Key) (d : Bool) : (s.setKey k d).mem = s.mem := rfl
@[simp] theorem State.setKey_runState (k : Key) (d : Bool) : (s.setKey k d).runState = s.runState := rfl
@[simp] theorem State.setKey_waitReg (k : Key) (d : Bool) : (s.setKey k d).waitReg = s.waitReg := rfl
@[simp] theorem State.setKey_haltReason (k : Key) (d : Bool) : (s.setKey k d).haltReason = s.haltReason := rfl
@[simp] theorem State.setKey_cfg (k : Key) (d : Bool) : (s.setKey k d).cfg = s.cfg := rfl
@[simp] theorem State.setKey_fault (k : Key) (d : Bool) : (s.setKey k d).fault = s.fault := rfl
@[simp] theorem State.setKey_pushPending (k : Key) (d : Bool) : (s.setKey k d).pushPending = s.pushPending := rfl
@[simp] theorem State.setKey_displayOut (k : Key) (d : Bool) : (s.setKey k d).displayOut = s.displayOut := rfl
@[simp] theorem State.setKey_faultEvent (k : Key) (d : Bool) : (s.setKey k d).faultEvent = s.faultEvent := rfl
@[simp] theorem State.setKey_ports (k : Key) (d : Bool) : (s.setKey k d).ports = s.ports := rfl
@[simp] theorem State.setKey_rst (k : Key) (d : Bool) : (s.setKey k d).rst = s.rst := rfl
@[simp] theorem State.setKey_font (k : Key) (d : Bool) : (s.setKey k d).font = s.font := rfl
@[simp] theorem State.setKey_pending (k : Key) (d : Bool) : (s.setKey k d).pending = s.pending := rfl
@[simp] theorem State.setKey_stepNo (k : Key) (d : Bool) : (s.setKey k d).stepNo = s.stepNo := rfl
@[simp] theorem State.setKey_getV (k : Key) (d : Bool) (q : Reg) : (s.setKey k d).getV q = s.getV q := rfl

/-! ### State.setMem -/

@[simp] theorem State.setMem_v (m : Memory) : (s.setMem m).v = s.v := rfl
@[simp] theorem State.setMem_i (m : Memory) : (s.setMem m).i = s.i := rfl
@[simp] theorem State.setMem_pc (m : Memory) : (s.setMem m).pc = s.pc := rfl
@[simp] theorem State.setMem_callStack (m : Memory) : (s.setMem m).callStack = s.callStack := rfl
@[simp] theorem State.setMem_dt (m : Memory) : (s.setMem m).dt = s.dt := rfl
@[simp] theorem State.setMem_st (m : Memory) : (s.setMem m).st = s.st := rfl
@[simp] theorem State.setMem_disp (m : Memory) : (s.setMem m).disp = s.disp := rfl
@[simp] theorem State.setMem_keys (m : Memory) : (s.setMem m).keys = s.keys := rfl
@[simp] theorem State.setMem_mem (m : Memory) : (s.setMem m).mem = m := rfl
@[simp] theorem State.setMem_runState (m : Memory) : (s.setMem m).runState = s.runState := rfl
@[simp] theorem State.setMem_waitReg (m : Memory) : (s.setMem m).waitReg = s.waitReg := rfl
@[simp] theorem State.setMem_haltReason (m : Memory) : (s.setMem m).haltReason = s.haltReason := rfl
@[simp] theorem State.setMem_cfg (m : Memory) : (s.setMem m).cfg = s.cfg := rfl
@[simp] theorem State.setMem_fault (m : Memory) : (s.setMem m).fault = s.fault := rfl
@[simp] theorem State.setMem_pushPending (m : Memory) : (s.setMem m).pushPending = s.pushPending := rfl
@[simp] theorem State.setMem_displayOut (m : Memory) : (s.setMem m).displayOut = s.displayOut := rfl
@[simp] theorem State.setMem_faultEvent (m : Memory) : (s.setMem m).faultEvent = s.faultEvent := rfl
@[simp] theorem State.setMem_ports (m : Memory) : (s.setMem m).ports = s.ports := rfl
@[simp] theorem State.setMem_rst (m : Memory) : (s.setMem m).rst = s.rst := rfl
@[simp] theorem State.setMem_font (m : Memory) : (s.setMem m).font = s.font := rfl
@[simp] theorem State.setMem_pending (m : Memory) : (s.setMem m).pending = s.pending := rfl
@[simp] theorem State.setMem_stepNo (m : Memory) : (s.setMem m).stepNo = s.stepNo := rfl
@[simp] theorem State.setMem_getV (m : Memory) (q : Reg) : (s.setMem m).getV q = s.getV q := rfl
@[simp] theorem State.setMem_getKey (m : Memory) (q : Key) : (s.setMem m).getKey q = s.getKey q := rfl

/-! ### State.enterWait -/

@[simp] theorem State.enterWait_v (x : Reg) : (s.enterWait x).v = s.v := rfl
@[simp] theorem State.enterWait_i (x : Reg) : (s.enterWait x).i = s.i := rfl
@[simp] theorem State.enterWait_pc (x : Reg) : (s.enterWait x).pc = s.pc := rfl
@[simp] theorem State.enterWait_callStack (x : Reg) : (s.enterWait x).callStack = s.callStack := rfl
@[simp] theorem State.enterWait_dt (x : Reg) : (s.enterWait x).dt = s.dt := rfl
@[simp] theorem State.enterWait_st (x : Reg) : (s.enterWait x).st = s.st := rfl
@[simp] theorem State.enterWait_disp (x : Reg) : (s.enterWait x).disp = s.disp := rfl
@[simp] theorem State.enterWait_keys (x : Reg) : (s.enterWait x).keys = s.keys := rfl
@[simp] theorem State.enterWait_mem (x : Reg) : (s.enterWait x).mem = s.mem := rfl
@[simp] theorem State.enterWait_runState (x : Reg) : (s.enterWait x).runState = .waiting := rfl
@[simp] theorem State.enterWait_waitReg (x : Reg) : (s.enterWait x).waitReg = x := rfl
@[simp] theorem State.enterWait_haltReason (x : Reg) : (s.enterWait x).haltReason = s.haltReason := rfl
@[simp] theorem State.enterWait_cfg (x : Reg) : (s.enterWait x).cfg = s.cfg := rfl
@[simp] theorem State.enterWait_fault (x : Reg) : (s.enterWait x).fault = s.fault := rfl
@[simp] theorem State.enterWait_pushPending (x : Reg) : (s.enterWait x).pushPending = s.pushPending := rfl
@[simp] theorem State.enterWait_displayOut (x : Reg) : (s.enterWait x).displayOut = s.displayOut := rfl
@[simp] theorem State.enterWait_faultEvent (x : Reg) : (s.enterWait x).faultEvent = s.faultEvent := rfl
@[simp] theorem State.enterWait_ports (x : Reg) : (s.enterWait x).ports = s.ports := rfl
@[simp] theorem State.enterWait_rst (x : Reg) : (s.enterWait x).rst = s.rst := rfl
@[simp] theorem State.enterWait_font (x : Reg) : (s.enterWait x).font = s.font := rfl
@[simp] theorem State.enterWait_pending (x : Reg) : (s.enterWait x).pending = s.pending := rfl
@[simp] theorem State.enterWait_stepNo (x : Reg) : (s.enterWait x).stepNo = s.stepNo := rfl
@[simp] theorem State.enterWait_getV (x : Reg) (q : Reg) : (s.enterWait x).getV q = s.getV q := rfl
@[simp] theorem State.enterWait_getKey (x : Reg) (q : Key) : (s.enterWait x).getKey q = s.getKey q := rfl

/-! ### State.wake -/

@[simp] theorem State.wake_v : (s.wake).v = s.v := rfl
@[simp] theorem State.wake_i : (s.wake).i = s.i := rfl
@[simp] theorem State.wake_pc : (s.wake).pc = s.pc := rfl
@[simp] theorem State.wake_callStack : (s.wake).callStack = s.callStack := rfl
@[simp] theorem State.wake_dt : (s.wake).dt = s.dt := rfl
@[simp] theorem State.wake_st : (s.wake).st = s.st := rfl
@[simp] theorem State.wake_disp : (s.wake).disp = s.disp := rfl
@[simp] theorem State.wake_keys : (s.wake).keys = s.keys := rfl
@[simp] theorem State.wake_mem : (s.wake).mem = s.mem := rfl
@[simp] theorem State.wake_runState : (s.wake).runState = .running := rfl
@[simp] theorem State.wake_waitReg : (s.wake).waitReg = s.waitReg := rfl
@[simp] theorem State.wake_haltReason : (s.wake).haltReason = s.haltReason := rfl
@[simp] theorem State.wake_cfg : (s.wake).cfg = s.cfg := rfl
@[simp] theorem State.wake_fault : (s.wake).fault = s.fault := rfl
@[simp] theorem State.wake_pushPending : (s.wake).pushPending = s.pushPending := rfl
@[simp] theorem State.wake_displayOut : (s.wake).displayOut = s.displayOut := rfl
@[simp] theorem State.wake_faultEvent : (s.wake).faultEvent = s.faultEvent := rfl
@[simp] theorem State.wake_ports : (s.wake).ports = s.ports := rfl
@[simp] theorem State.wake_rst : (s.wake).rst = s.rst := rfl
@[simp] theorem State.wake_font : (s.wake).font = s.font := rfl
@[simp] theorem State.wake_pending : (s.wake).pending = s.pending := rfl
@[simp] theorem State.wake_stepNo : (s.wake).stepNo = s.stepNo := rfl
@[simp] theorem State.wake_getV (q : Reg) : (s.wake).getV q = s.getV q := rfl
@[simp] theorem State.wake_getKey (q : Key) : (s.wake).getKey q = s.getKey q := rfl

/-! ### State.halt -/

@[simp] theorem State.halt_v (r : HaltReason) : (s.halt r).v = s.v := rfl
@[simp] theorem State.halt_i (r : HaltReason) : (s.halt r).i = s.i := rfl
@[simp] theorem State.halt_pc (r : HaltReason) : (s.halt r).pc = s.pc := rfl
@[simp] theorem State.halt_callStack (r : HaltReason) : (s.halt r).callStack = s.callStack := rfl
@[simp] theorem State.halt_dt (r : HaltReason) : (s.halt r).dt = s.dt := rfl
@[simp] theorem State.halt_st (r : HaltReason) : (s.halt r).st = s.st := rfl
@[simp] theorem State.halt_disp (r : HaltReason) : (s.halt r).disp = s.disp := rfl
@[simp] theorem State.halt_keys (r : HaltReason) : (s.halt r).keys = s.keys := rfl
@[simp] theorem State.halt_mem (r : HaltReason) : (s.halt r).mem = s.mem := rfl
@[simp] theorem State.halt_runState (r : HaltReason) : (s.halt r).runState = .halted := rfl
@[simp] theorem State.halt_waitReg (r : HaltReason) : (s.halt r).waitReg = s.waitReg := rfl
@[simp] theorem State.halt_haltReason (r : HaltReason) : (s.halt r).haltReason = r := rfl
@[simp] theorem State.halt_cfg (r : HaltReason) : (s.halt r).cfg = s.cfg := rfl
@[simp] theorem State.halt_fault (r : HaltReason) : (s.halt r).fault = s.fault := rfl
@[simp] theorem State.halt_pushPending (r : HaltReason) : (s.halt r).pushPending = s.pushPending := rfl
@[simp] theorem State.halt_displayOut (r : HaltReason) : (s.halt r).displayOut = s.displayOut := rfl
@[simp] theorem State.halt_faultEvent (r : HaltReason) : (s.halt r).faultEvent = s.faultEvent := rfl
@[simp] theorem State.halt_ports (r : HaltReason) : (s.halt r).ports = s.ports := rfl
@[simp] theorem State.halt_rst (r : HaltReason) : (s.halt r).rst = s.rst := rfl
@[simp] theorem State.halt_font (r : HaltReason) : (s.halt r).font = s.font := rfl
@[simp] theorem State.halt_pending (r : HaltReason) : (s.halt r).pending = s.pending := rfl
@[simp] theorem State.halt_stepNo (r : HaltReason) : (s.halt r).stepNo = s.stepNo := rfl
@[simp] theorem State.halt_getV (r : HaltReason) (q : Reg) : (s.halt r).getV q = s.getV q := rfl
@[simp] theorem State.halt_getKey (r : HaltReason) (q : Key) : (s.halt r).getKey q = s.getKey q := rfl

/-! ### State.recordFault -/

@[simp] theorem State.recordFault_v (f : FaultRecord) : (s.recordFault f).v = s.v := rfl
@[simp] theorem State.recordFault_i (f : FaultRecord) : (s.recordFault f).i = s.i := rfl
@[simp] theorem State.recordFault_pc (f : FaultRecord) : (s.recordFault f).pc = s.pc := rfl
@[simp] theorem State.recordFault_callStack (f : FaultRecord) : (s.recordFault f).callStack = s.callStack := rfl
@[simp] theorem State.recordFault_dt (f : FaultRecord) : (s.recordFault f).dt = s.dt := rfl
@[simp] theorem State.recordFault_st (f : FaultRecord) : (s.recordFault f).st = s.st := rfl
@[simp] theorem State.recordFault_disp (f : FaultRecord) : (s.recordFault f).disp = s.disp := rfl
@[simp] theorem State.recordFault_keys (f : FaultRecord) : (s.recordFault f).keys = s.keys := rfl
@[simp] theorem State.recordFault_mem (f : FaultRecord) : (s.recordFault f).mem = s.mem := rfl
@[simp] theorem State.recordFault_runState (f : FaultRecord) : (s.recordFault f).runState = s.runState := rfl
@[simp] theorem State.recordFault_waitReg (f : FaultRecord) : (s.recordFault f).waitReg = s.waitReg := rfl
@[simp] theorem State.recordFault_haltReason (f : FaultRecord) : (s.recordFault f).haltReason = s.haltReason := rfl
@[simp] theorem State.recordFault_cfg (f : FaultRecord) : (s.recordFault f).cfg = s.cfg := rfl
@[simp] theorem State.recordFault_fault (f : FaultRecord) : (s.recordFault f).fault = f := rfl
@[simp] theorem State.recordFault_pushPending (f : FaultRecord) : (s.recordFault f).pushPending = s.pushPending := rfl
@[simp] theorem State.recordFault_displayOut (f : FaultRecord) : (s.recordFault f).displayOut = s.displayOut := rfl
@[simp] theorem State.recordFault_faultEvent (f : FaultRecord) : (s.recordFault f).faultEvent = true := rfl
@[simp] theorem State.recordFault_ports (f : FaultRecord) : (s.recordFault f).ports = s.ports := rfl
@[simp] theorem State.recordFault_rst (f : FaultRecord) : (s.recordFault f).rst = s.rst := rfl
@[simp] theorem State.recordFault_font (f : FaultRecord) : (s.recordFault f).font = s.font := rfl
@[simp] theorem State.recordFault_pending (f : FaultRecord) : (s.recordFault f).pending = s.pending := rfl
@[simp] theorem State.recordFault_stepNo (f : FaultRecord) : (s.recordFault f).stepNo = s.stepNo := rfl
@[simp] theorem State.recordFault_getV (f : FaultRecord) (q : Reg) : (s.recordFault f).getV q = s.getV q := rfl
@[simp] theorem State.recordFault_getKey (f : FaultRecord) (q : Key) : (s.recordFault f).getKey q = s.getKey q := rfl

/-! ### State.setPushPending -/

@[simp] theorem State.setPushPending_v (b : Bool) : (s.setPushPending b).v = s.v := rfl
@[simp] theorem State.setPushPending_i (b : Bool) : (s.setPushPending b).i = s.i := rfl
@[simp] theorem State.setPushPending_pc (b : Bool) : (s.setPushPending b).pc = s.pc := rfl
@[simp] theorem State.setPushPending_callStack (b : Bool) : (s.setPushPending b).callStack = s.callStack := rfl
@[simp] theorem State.setPushPending_dt (b : Bool) : (s.setPushPending b).dt = s.dt := rfl
@[simp] theorem State.setPushPending_st (b : Bool) : (s.setPushPending b).st = s.st := rfl
@[simp] theorem State.setPushPending_disp (b : Bool) : (s.setPushPending b).disp = s.disp := rfl
@[simp] theorem State.setPushPending_keys (b : Bool) : (s.setPushPending b).keys = s.keys := rfl
@[simp] theorem State.setPushPending_mem (b : Bool) : (s.setPushPending b).mem = s.mem := rfl
@[simp] theorem State.setPushPending_runState (b : Bool) : (s.setPushPending b).runState = s.runState := rfl
@[simp] theorem State.setPushPending_waitReg (b : Bool) : (s.setPushPending b).waitReg = s.waitReg := rfl
@[simp] theorem State.setPushPending_haltReason (b : Bool) : (s.setPushPending b).haltReason = s.haltReason := rfl
@[simp] theorem State.setPushPending_cfg (b : Bool) : (s.setPushPending b).cfg = s.cfg := rfl
@[simp] theorem State.setPushPending_fault (b : Bool) : (s.setPushPending b).fault = s.fault := rfl
@[simp] theorem State.setPushPending_pushPending (b : Bool) : (s.setPushPending b).pushPending = b := rfl
@[simp] theorem State.setPushPending_displayOut (b : Bool) : (s.setPushPending b).displayOut = s.displayOut := rfl
@[simp] theorem State.setPushPending_faultEvent (b : Bool) : (s.setPushPending b).faultEvent = s.faultEvent := rfl
@[simp] theorem State.setPushPending_ports (b : Bool) : (s.setPushPending b).ports = s.ports := rfl
@[simp] theorem State.setPushPending_rst (b : Bool) : (s.setPushPending b).rst = s.rst := rfl
@[simp] theorem State.setPushPending_font (b : Bool) : (s.setPushPending b).font = s.font := rfl
@[simp] theorem State.setPushPending_pending (b : Bool) : (s.setPushPending b).pending = s.pending := rfl
@[simp] theorem State.setPushPending_stepNo (b : Bool) : (s.setPushPending b).stepNo = s.stepNo := rfl
@[simp] theorem State.setPushPending_getV (b : Bool) (q : Reg) : (s.setPushPending b).getV q = s.getV q := rfl
@[simp] theorem State.setPushPending_getKey (b : Bool) (q : Key) : (s.setPushPending b).getKey q = s.getKey q := rfl

/-! ### State.pushDisplay -/

@[simp] theorem State.pushDisplay_v : (s.pushDisplay).v = s.v := rfl
@[simp] theorem State.pushDisplay_i : (s.pushDisplay).i = s.i := rfl
@[simp] theorem State.pushDisplay_pc : (s.pushDisplay).pc = s.pc := rfl
@[simp] theorem State.pushDisplay_callStack : (s.pushDisplay).callStack = s.callStack := rfl
@[simp] theorem State.pushDisplay_dt : (s.pushDisplay).dt = s.dt := rfl
@[simp] theorem State.pushDisplay_st : (s.pushDisplay).st = s.st := rfl
@[simp] theorem State.pushDisplay_disp : (s.pushDisplay).disp = s.disp := rfl
@[simp] theorem State.pushDisplay_keys : (s.pushDisplay).keys = s.keys := rfl
@[simp] theorem State.pushDisplay_mem : (s.pushDisplay).mem = s.mem := rfl
@[simp] theorem State.pushDisplay_runState : (s.pushDisplay).runState = s.runState := rfl
@[simp] theorem State.pushDisplay_waitReg : (s.pushDisplay).waitReg = s.waitReg := rfl
@[simp] theorem State.pushDisplay_haltReason : (s.pushDisplay).haltReason = s.haltReason := rfl
@[simp] theorem State.pushDisplay_cfg : (s.pushDisplay).cfg = s.cfg := rfl
@[simp] theorem State.pushDisplay_fault : (s.pushDisplay).fault = s.fault := rfl
@[simp] theorem State.pushDisplay_pushPending : (s.pushDisplay).pushPending = s.pushPending := rfl
@[simp] theorem State.pushDisplay_displayOut : (s.pushDisplay).displayOut = some s.disp := rfl
@[simp] theorem State.pushDisplay_faultEvent : (s.pushDisplay).faultEvent = s.faultEvent := rfl
@[simp] theorem State.pushDisplay_ports : (s.pushDisplay).ports = s.ports := rfl
@[simp] theorem State.pushDisplay_rst : (s.pushDisplay).rst = s.rst := rfl
@[simp] theorem State.pushDisplay_font : (s.pushDisplay).font = s.font := rfl
@[simp] theorem State.pushDisplay_pending : (s.pushDisplay).pending = s.pending := rfl
@[simp] theorem State.pushDisplay_stepNo : (s.pushDisplay).stepNo = s.stepNo := rfl
@[simp] theorem State.pushDisplay_getV (q : Reg) : (s.pushDisplay).getV q = s.getV q := rfl
@[simp] theorem State.pushDisplay_getKey (q : Key) : (s.pushDisplay).getKey q = s.getKey q := rfl

/-! ### State.clearOutputs -/

@[simp] theorem State.clearOutputs_v : (s.clearOutputs).v = s.v := rfl
@[simp] theorem State.clearOutputs_i : (s.clearOutputs).i = s.i := rfl
@[simp] theorem State.clearOutputs_pc : (s.clearOutputs).pc = s.pc := rfl
@[simp] theorem State.clearOutputs_callStack : (s.clearOutputs).callStack = s.callStack := rfl
@[simp] theorem State.clearOutputs_dt : (s.clearOutputs).dt = s.dt := rfl
@[simp] theorem State.clearOutputs_st : (s.clearOutputs).st = s.st := rfl
@[simp] theorem State.clearOutputs_disp : (s.clearOutputs).disp = s.disp := rfl
@[simp] theorem State.clearOutputs_keys : (s.clearOutputs).keys = s.keys := rfl
@[simp] theorem State.clearOutputs_mem : (s.clearOutputs).mem = s.mem := rfl
@[simp] theorem State.clearOutputs_runState : (s.clearOutputs).runState = s.runState := rfl
@[simp] theorem State.clearOutputs_waitReg : (s.clearOutputs).waitReg = s.waitReg := rfl
@[simp] theorem State.clearOutputs_haltReason : (s.clearOutputs).haltReason = s.haltReason := rfl
@[simp] theorem State.clearOutputs_cfg : (s.clearOutputs).cfg = s.cfg := rfl
@[simp] theorem State.clearOutputs_fault : (s.clearOutputs).fault = s.fault := rfl
@[simp] theorem State.clearOutputs_pushPending : (s.clearOutputs).pushPending = false := rfl
@[simp] theorem State.clearOutputs_displayOut : (s.clearOutputs).displayOut = none := rfl
@[simp] theorem State.clearOutputs_faultEvent : (s.clearOutputs).faultEvent = false := rfl
@[simp] theorem State.clearOutputs_ports : (s.clearOutputs).ports = s.ports := rfl
@[simp] theorem State.clearOutputs_rst : (s.clearOutputs).rst = s.rst := rfl
@[simp] theorem State.clearOutputs_font : (s.clearOutputs).font = s.font := rfl
@[simp] theorem State.clearOutputs_pending : (s.clearOutputs).pending = s.pending := rfl
@[simp] theorem State.clearOutputs_stepNo : (s.clearOutputs).stepNo = s.stepNo := rfl
@[simp] theorem State.clearOutputs_getV (q : Reg) : (s.clearOutputs).getV q = s.getV q := rfl
@[simp] theorem State.clearOutputs_getKey (q : Key) : (s.clearOutputs).getKey q = s.getKey q := rfl

/-! ### State.setPorts -/

@[simp] theorem State.setPorts_v (p : PassInputs) : (s.setPorts p).v = s.v := rfl
@[simp] theorem State.setPorts_i (p : PassInputs) : (s.setPorts p).i = s.i := rfl
@[simp] theorem State.setPorts_pc (p : PassInputs) : (s.setPorts p).pc = s.pc := rfl
@[simp] theorem State.setPorts_callStack (p : PassInputs) : (s.setPorts p).callStack = s.callStack := rfl
@[simp] theorem State.setPorts_dt (p : PassInputs) : (s.setPorts p).dt = s.dt := rfl
@[simp] theorem State.setPorts_st (p : PassInputs) : (s.setPorts p).st = s.st := rfl
@[simp] theorem State.setPorts_disp (p : PassInputs) : (s.setPorts p).disp = s.disp := rfl
@[simp] theorem State.setPorts_keys (p : PassInputs) : (s.setPorts p).keys = s.keys := rfl
@[simp] theorem State.setPorts_mem (p : PassInputs) : (s.setPorts p).mem = s.mem := rfl
@[simp] theorem State.setPorts_runState (p : PassInputs) : (s.setPorts p).runState = s.runState := rfl
@[simp] theorem State.setPorts_waitReg (p : PassInputs) : (s.setPorts p).waitReg = s.waitReg := rfl
@[simp] theorem State.setPorts_haltReason (p : PassInputs) : (s.setPorts p).haltReason = s.haltReason := rfl
@[simp] theorem State.setPorts_cfg (p : PassInputs) : (s.setPorts p).cfg = s.cfg := rfl
@[simp] theorem State.setPorts_fault (p : PassInputs) : (s.setPorts p).fault = s.fault := rfl
@[simp] theorem State.setPorts_pushPending (p : PassInputs) : (s.setPorts p).pushPending = s.pushPending := rfl
@[simp] theorem State.setPorts_displayOut (p : PassInputs) : (s.setPorts p).displayOut = s.displayOut := rfl
@[simp] theorem State.setPorts_faultEvent (p : PassInputs) : (s.setPorts p).faultEvent = s.faultEvent := rfl
@[simp] theorem State.setPorts_ports (p : PassInputs) : (s.setPorts p).ports = p := rfl
@[simp] theorem State.setPorts_rst (p : PassInputs) : (s.setPorts p).rst = s.rst := rfl
@[simp] theorem State.setPorts_font (p : PassInputs) : (s.setPorts p).font = s.font := rfl
@[simp] theorem State.setPorts_pending (p : PassInputs) : (s.setPorts p).pending = s.pending := rfl
@[simp] theorem State.setPorts_stepNo (p : PassInputs) : (s.setPorts p).stepNo = s.stepNo := rfl
@[simp] theorem State.setPorts_getV (p : PassInputs) (q : Reg) : (s.setPorts p).getV q = s.getV q := rfl
@[simp] theorem State.setPorts_getKey (p : PassInputs) (q : Key) : (s.setPorts p).getKey q = s.getKey q := rfl

/-! ### State.setRst -/

@[simp] theorem State.setRst_v (r : ResetLine) : (s.setRst r).v = s.v := rfl
@[simp] theorem State.setRst_i (r : ResetLine) : (s.setRst r).i = s.i := rfl
@[simp] theorem State.setRst_pc (r : ResetLine) : (s.setRst r).pc = s.pc := rfl
@[simp] theorem State.setRst_callStack (r : ResetLine) : (s.setRst r).callStack = s.callStack := rfl
@[simp] theorem State.setRst_dt (r : ResetLine) : (s.setRst r).dt = s.dt := rfl
@[simp] theorem State.setRst_st (r : ResetLine) : (s.setRst r).st = s.st := rfl
@[simp] theorem State.setRst_disp (r : ResetLine) : (s.setRst r).disp = s.disp := rfl
@[simp] theorem State.setRst_keys (r : ResetLine) : (s.setRst r).keys = s.keys := rfl
@[simp] theorem State.setRst_mem (r : ResetLine) : (s.setRst r).mem = s.mem := rfl
@[simp] theorem State.setRst_runState (r : ResetLine) : (s.setRst r).runState = s.runState := rfl
@[simp] theorem State.setRst_waitReg (r : ResetLine) : (s.setRst r).waitReg = s.waitReg := rfl
@[simp] theorem State.setRst_haltReason (r : ResetLine) : (s.setRst r).haltReason = s.haltReason := rfl
@[simp] theorem State.setRst_cfg (r : ResetLine) : (s.setRst r).cfg = s.cfg := rfl
@[simp] theorem State.setRst_fault (r : ResetLine) : (s.setRst r).fault = s.fault := rfl
@[simp] theorem State.setRst_pushPending (r : ResetLine) : (s.setRst r).pushPending = s.pushPending := rfl
@[simp] theorem State.setRst_displayOut (r : ResetLine) : (s.setRst r).displayOut = s.displayOut := rfl
@[simp] theorem State.setRst_faultEvent (r : ResetLine) : (s.setRst r).faultEvent = s.faultEvent := rfl
@[simp] theorem State.setRst_ports (r : ResetLine) : (s.setRst r).ports = s.ports := rfl
@[simp] theorem State.setRst_rst (r : ResetLine) : (s.setRst r).rst = r := rfl
@[simp] theorem State.setRst_font (r : ResetLine) : (s.setRst r).font = s.font := rfl
@[simp] theorem State.setRst_pending (r : ResetLine) : (s.setRst r).pending = s.pending := rfl
@[simp] theorem State.setRst_stepNo (r : ResetLine) : (s.setRst r).stepNo = s.stepNo := rfl
@[simp] theorem State.setRst_getV (r : ResetLine) (q : Reg) : (s.setRst r).getV q = s.getV q := rfl
@[simp] theorem State.setRst_getKey (r : ResetLine) (q : Key) : (s.setRst r).getKey q = s.getKey q := rfl

/-! ### State.takeEvent -/

@[simp] theorem State.takeEvent_v : (s.takeEvent).v = s.v := rfl
@[simp] theorem State.takeEvent_i : (s.takeEvent).i = s.i := rfl
@[simp] theorem State.takeEvent_pc : (s.takeEvent).pc = s.pc := rfl
@[simp] theorem State.takeEvent_callStack : (s.takeEvent).callStack = s.callStack := rfl
@[simp] theorem State.takeEvent_dt : (s.takeEvent).dt = s.dt := rfl
@[simp] theorem State.takeEvent_st : (s.takeEvent).st = s.st := rfl
@[simp] theorem State.takeEvent_disp : (s.takeEvent).disp = s.disp := rfl
@[simp] theorem State.takeEvent_keys : (s.takeEvent).keys = s.keys := rfl
@[simp] theorem State.takeEvent_mem : (s.takeEvent).mem = s.mem := rfl
@[simp] theorem State.takeEvent_runState : (s.takeEvent).runState = s.runState := rfl
@[simp] theorem State.takeEvent_waitReg : (s.takeEvent).waitReg = s.waitReg := rfl
@[simp] theorem State.takeEvent_haltReason : (s.takeEvent).haltReason = s.haltReason := rfl
@[simp] theorem State.takeEvent_cfg : (s.takeEvent).cfg = s.cfg := rfl
@[simp] theorem State.takeEvent_fault : (s.takeEvent).fault = s.fault := rfl
@[simp] theorem State.takeEvent_pushPending : (s.takeEvent).pushPending = s.pushPending := rfl
@[simp] theorem State.takeEvent_displayOut : (s.takeEvent).displayOut = s.displayOut := rfl
@[simp] theorem State.takeEvent_faultEvent : (s.takeEvent).faultEvent = s.faultEvent := rfl
@[simp] theorem State.takeEvent_ports : (s.takeEvent).ports = s.ports := rfl
@[simp] theorem State.takeEvent_rst : (s.takeEvent).rst = s.rst := rfl
@[simp] theorem State.takeEvent_font : (s.takeEvent).font = s.font := rfl
@[simp] theorem State.takeEvent_pending : (s.takeEvent).pending = s.pending.tail := rfl
@[simp] theorem State.takeEvent_stepNo : (s.takeEvent).stepNo = s.stepNo + 1 := rfl
@[simp] theorem State.takeEvent_getV (q : Reg) : (s.takeEvent).getV q = s.getV q := rfl
@[simp] theorem State.takeEvent_getKey (q : Key) : (s.takeEvent).getKey q = s.getKey q := rfl

end Updates

end Sys2Proof.Machine
end

