-- ==== Sys2Proof/Laws/Ops.lean ====
section
/-! SUPPORT. What each shared operation over registers, keys, pixels, the call stack, the program counter and the fault
record can do. -/

namespace Sys2Proof.Machine

/-! ## Registers and keys -/

@[simp] theorem State.getV_setV (s : State) (x y : Reg) (b : Byte) :
    (s.setV x b).getV y = if x = y then b else s.getV y := by
  simp [State.getV, Vector.getElem_set, Fin.ext_iff]

@[simp] theorem State.getKey_setKey (s : State) (k l : Key) (d : Bool) :
    (s.setKey k d).getKey l = if k = l then d else s.getKey l := by
  simp [State.getKey, Vector.getElem_set, Fin.ext_iff]

/-- A register reads as before where the V registers are as before. -/
theorem State.getV_congr {s t : State} (h : t.v = s.v) (x : Reg) : t.getV x = s.getV x := by
  simp [State.getV, h]

/-- A key reads as before where the keyboard state is as before. -/
theorem State.getKey_congr {s t : State} (h : t.keys = s.keys) (k : Key) : t.getKey k = s.getKey k := by
  simp [State.getKey, h]

/-- The registers after FX65's block: the bytes read up to X, the old registers above it (R196). -/
theorem State.getV_setRegs_loadedRegs (s : State) (x r : Reg) :
    (s.setRegs (s.loadedRegs x)).getV r = if r.val ≤ x.val then s.mem.read (s.i.toNat + r.val) else s.getV r := by
  simp [State.getV, State.loadedRegs, State.dataAddr]

/-- The bytes FX55 stores: X + 1 of them, the k-th being `V[k]` (R195). -/
theorem State.regBlock_length (s : State) (x : Reg) : (s.regBlock x).length = x.val + 1 := by
  simp [State.regBlock]

theorem State.regBlock_getD (s : State) (x r : Reg) (h : r.val ≤ x.val) : (s.regBlock x).getD r.val 0#8 = s.getV r := by
  have h1 : r.val < (s.regBlock x).length := by rw [State.regBlock_length]; omega
  rw [List.getD_eq_getElem _ _ h1]
  simp [State.regBlock, State.getV]

/-! ## Pixels -/

@[simp] theorem Display.pixel_off (y : Row) (x : Col) : Display.off.pixel y x = false := by
  simp [Display.pixel, Display.off]

/-- Flipping one cell changes that cell and no other (R222). -/
@[simp] theorem Display.pixel_flip (d : Display) (y : Row) (x : Col) (y' : Row) (x' : Col) :
    (d.flip y x).pixel y' x' = ((d.pixel y' x').xor (decide (y = y' ∧ x = x'))) := by
  by_cases hy : y = y'
  · subst hy
    simp [Display.pixel, Display.flip, Fin.ext_iff, eq_comm]
  · have : y.val ≠ y'.val := fun h => hy (Fin.ext h)
    simp [Display.pixel, Display.flip, this, hy]

/-- Bit 64*y + x of rows laid out one after the other is bit x of row y. -/
theorem testBit_rows (l : List (BitVec 64)) (y x : Nat) (hy : y < l.length) (hx : x < 64) :
    (l.foldr (fun (row : BitVec 64) (n : Nat) => 2 ^ 64 * n + row.toNat) 0).testBit (64 * y + x) = l[y].getLsbD x := by
  induction l generalizing y with
  | nil => simp at hy
  | cons b l ih =>
    rw [List.foldr_cons, Nat.testBit_two_pow_mul_add _ b.isLt]
    cases y with
    | zero => simp [hx, BitVec.getLsbD]
    | succ y =>
      rw [if_neg (by omega), show 64 * (y + 1) + x - 64 = 64 * y + x by omega]
      exact ih y (by simpa using hy)

/-- The layout of `display_frame` (R302). -/
@[simp] theorem Display.getLsbD_frame (d : Display) (y : Row) (x : Col) :
    d.frame.getLsbD (64 * y.val + x.val) = d.pixel y x := by
  have hy := y.isLt
  have hx := x.isLt
  rw [Display.frame, BitVec.getLsbD_ofNat, testBit_rows d.toList y.val x.val (by simp) hx, Display.pixel]
  simp
  omega

/-- Two display buffers with the same pixels are equal data. -/
theorem Display.eq_of_pixel_eq {d e : Display} (h : ∀ y x, d.pixel y x = e.pixel y x) : d = e := by
  apply Vector.ext
  intro y hy
  apply BitVec.eq_of_getLsbD_eq
  intro x hx
  exact h ⟨y, hy⟩ ⟨x, hx⟩

/-! ## The call stack -/

@[simp] theorem CallStack.push_depth (c : CallStack) (a : Word) : (c.push a).depth = c.depth := by
  simp [CallStack.push, CallStack.depth]

@[simp] theorem CallStack.drop_depth (c : CallStack) : c.drop.depth = c.depth := rfl

/-- Pushing onto a stack that is not full makes the pushed address the top (R125). -/
theorem CallStack.top?_push {c : CallStack} (h : c.sp < c.depth) (a : Word) : (c.push a).top? = some a := by
  simp only [CallStack.depth] at h
  simp [CallStack.top?, CallStack.push, h]

/-- A stack with 0 < SP <= STACK_DEPTH has a top entry, one of its entries (R28). -/
theorem CallStack.top?_eq_some {c : CallStack} (h0 : c.sp ≠ 0) (h : c.sp ≤ c.depth) :
    ∃ a, c.top? = some a ∧ a ∈ c.entries := by
  simp only [CallStack.depth] at h
  have h1 : c.sp - 1 < c.entries.length := by omega
  exact ⟨c.entries[c.sp - 1], by simp [CallStack.top?, h0, h1], List.getElem_mem h1⟩

/-! ## The program counter, I and the compound updates -/

theorem State.advance_eq (s : State) : s.advance = s.setPc (s.pc + 2#16) := rfl

/-- `Skip()` or nothing: only `pc` can change, by 2 (R121). -/
@[simp] theorem State.skipIf_eq (s : State) (b : Bool) : s.skipIf b = s.setPc (if b then s.pc + 2#16 else s.pc) := by
  cases b <;> rfl

/-- `IncI` writes I and nothing else; under NONE it writes I's own value (R190). -/
theorem State.incI_eq (s : State) (x : Reg) :
    s.incI x = s.setI (match s.cfg.incrementMode with
      | .xPlus1 => BitVec.ofNat 16 (s.i.toNat + x.val + 1)
      | .x => BitVec.ofNat 16 (s.i.toNat + x.val)
      | .none => s.i) := by
  simp only [State.incI]
  split <;> simp_all [State.setI]

theorem State.commit_eq (s : State) (x : Reg) (r f : Byte) : s.commit x r f = (s.setV x r).setV vf f := rfl

/-- Writing the difference only when X is not F is the same as writing it and then the flag (R151, R159). -/
theorem State.commitUnlessVF_eq (s : State) (x : Reg) (d f : Byte) : s.commitUnlessVF x d f = s.commit x d f := by
  simp only [State.commitUnlessVF]
  split
  · subst x; simp [State.commit, State.setV]
  · rfl

/-- The display push request changes `push_pending` and nothing else (R225). -/
theorem State.requestPush_eq (s : State) :
    s.requestPush = s.setPushPending (if s.cfg.drawOnCall then true else s.pushPending) := by
  simp only [State.requestPush]
  split <;> simp [State.setPushPending]

/-! ## Raising a fault -/

/-- Everything a fault does: it is recorded, and then the block halts or, under SKIP, goes on (R262 to R265). -/
theorem State.raiseFault_cases (s : State) (f : FaultRecord) :
    (s.resolve f.cause = .halt ∧ s.raiseFault f = (s.recordFault f).halt .fault) ∨
      (s.resolve f.cause = .skip ∧ s.raiseFault f = s.recordFault f) := by
  cases h : s.resolve f.cause <;> simp [State.raiseFault, h]

/-- A fault leaves everything but the record, `fault_event`, the run state and the halt reason as it was (R267). -/
@[simp] theorem State.raiseFault_frame (s : State) (f : FaultRecord) :
    (s.raiseFault f).v = s.v ∧ (s.raiseFault f).i = s.i ∧ (s.raiseFault f).pc = s.pc ∧
    (s.raiseFault f).callStack = s.callStack ∧ (s.raiseFault f).dt = s.dt ∧ (s.raiseFault f).st = s.st ∧
    (s.raiseFault f).disp = s.disp ∧ (s.raiseFault f).keys = s.keys ∧ (s.raiseFault f).mem = s.mem ∧
    (s.raiseFault f).waitReg = s.waitReg ∧ (s.raiseFault f).cfg = s.cfg ∧
    (s.raiseFault f).pushPending = s.pushPending ∧ (s.raiseFault f).displayOut = s.displayOut ∧
    (s.raiseFault f).ports = s.ports ∧ (s.raiseFault f).rst = s.rst ∧ (s.raiseFault f).font = s.font ∧
    (s.raiseFault f).pending = s.pending ∧ (s.raiseFault f).stepNo = s.stepNo := by
  rcases State.raiseFault_cases s f with ⟨-, h⟩ | ⟨-, h⟩ <;> rw [h] <;> simp

/-- The record and `fault_event` under every policy (R262). -/
@[simp] theorem State.raiseFault_record (s : State) (f : FaultRecord) :
    (s.raiseFault f).fault = f ∧ (s.raiseFault f).faultEvent = true := by
  rcases State.raiseFault_cases s f with ⟨-, h⟩ | ⟨-, h⟩ <;> rw [h] <;> simp

/-- A cause without a policy of its own always halts (R263). -/
theorem State.raiseFault_halts {s : State} {f : FaultRecord} (h1 : f.cause ≠ .unknownOpcode)
    (h2 : f.cause ≠ .stackUnderflow) :
    (s.raiseFault f).runState = .halted ∧ (s.raiseFault f).haltReason = .fault := by
  have h : s.resolve f.cause = .halt := by
    cases hc : f.cause <;> simp_all [State.resolve]
  simp [State.raiseFault, h]

/-- `CheckRange` finds an out-of-range address exactly when the last one is above 0xFFF, and it is at least 0x1000 (R67). -/
theorem checkRange_cases (lo hi : Nat) :
    (hi ≤ 0xFFF ∧ checkRange lo hi = none) ∨ (0xFFF < hi ∧ checkRange lo hi = some (max lo 0x1000)) := by
  by_cases h : hi > 0xFFF
  · exact .inr ⟨h, by simp [checkRange, h]⟩
  · exact .inl ⟨by omega, by simp [checkRange, h]⟩

/-- A data access of instruction `i` either has its effect or raises MEM_BOUNDS_DATA (R67). -/
theorem State.withRange_cases (s : State) (i : Instr) (k : Nat) (e : State) :
    (s.i.toNat + k ≤ 0xFFF ∧ s.withRange i k e = .next e) ∨
      (0xFFF < s.i.toNat + k ∧ s.withRange i k e =
        .next (s.raiseIn i .memBoundsData (BitVec.ofNat 16 (max s.i.toNat 0x1000)))) := by
  rcases checkRange_cases (s.dataAddr 0) (s.dataAddr k) with ⟨h, hc⟩ | ⟨h, hc⟩
  · exact .inl ⟨h, by rw [State.withRange, hc]⟩
  · exact .inr ⟨h, by rw [State.withRange, hc]; rfl⟩

end Sys2Proof.Machine
end

