-- ==== Sys2Proof/Laws/Draw.lean ====
section
/-! SUPPORT. What drawing a sprite does to the buffer and to the collision flag (43_display.md R222 to R224). -/

namespace Sys2Proof.Machine

theorem cellCol_eq_iff (x0 : Byte) (c : Nat) (x : Col) : cellCol x0 c = x ↔ x.val = (x0.toNat + c) % 64 := by
  simp [cellCol, Fin.ext_iff, Fin.ofNat, eq_comm]

theorem cellRow_eq_iff (y0 : Byte) (r : Nat) (y : Row) : cellRow y0 r = y ↔ y.val = (y0.toNat + r) % 32 := by
  simp [cellRow, Fin.ext_iff, Fin.ofNat, eq_comm]

/-- A cell flipped by a first drawing on `a` and then by a second one on `b`, where no cell is in both. -/
theorem flipped_twice {p q r a b : Prop} (h1 : q ↔ (p ↔ ¬ a)) (h2 : r ↔ (q ↔ ¬ b)) (hab : a → ¬ b) :
    r ↔ (p ↔ ¬ (a ∨ b)) := by
  by_cases hp : p <;> by_cases ha : a <;> by_cases hb : b <;> simp_all

/-- One sprite bit drawn: a 1-bit flips its cell, and hits exactly when the cell was set (R222, R224). -/
theorem drawBit_spec (bit : Bool) (y : Row) (x : Col) (acc : Display × Bool) :
    (∀ y' x', ((drawBit bit y x acc).1.pixel y' x' = true) ↔
      ((acc.1.pixel y' x' = true) ↔ ¬ (bit = true ∧ y = y' ∧ x = x'))) ∧
    (((drawBit bit y x acc).2 = true) ↔ (acc.2 = true ∨ (bit = true ∧ acc.1.pixel y x = true))) := by
  cases bit with
  | false => simp [drawBit]
  | true =>
    refine ⟨fun y' x' => ?_, by simp [drawBit]⟩
    rw [drawBit, if_pos rfl, Display.pixel_flip]
    by_cases h : y = y' ∧ x = x'
    · simp [h]
    · simp only [h, decide_false, Bool.xor_false, and_false, not_false_eq_true, iff_true]

/-- The first `k` columns of the sprite byte `b`, drawn with column 0 at x0, have a 1-bit on column `x`. -/
def ByteCovers (b x0 : Byte) (k : Nat) (x : Col) : Prop := ∃ c, c < k ∧ cellCol x0 c = x ∧ b.getLsbD (7 - c) = true

theorem byteCovers_succ (b x0 : Byte) (k : Nat) (x : Col) :
    ByteCovers b x0 (k + 1) x ↔ (ByteCovers b x0 k x ∨ (b.getLsbD (7 - k) = true ∧ cellCol x0 k = x)) := by
  constructor
  · rintro ⟨c, hc, h1, h2⟩
    by_cases hck : c = k
    · exact .inr (hck ▸ ⟨h2, h1⟩)
    · exact .inl ⟨c, by omega, h1, h2⟩
  · rintro (⟨c, hc, h⟩ | ⟨h2, h1⟩)
    · exact ⟨c, by omega, h⟩
    · exact ⟨k, by omega, h1, h2⟩

/-- Eight columns are distinct cells of a row of 64. -/
theorem byteCovers_disjoint {b x0 : Byte} {k : Nat} (hk : k < 8) {x : Col} (h : ByteCovers b x0 k x) :
    cellCol x0 k ≠ x := by
  obtain ⟨c, hc, h, -⟩ := h
  intro h'
  rw [cellCol_eq_iff] at h h'
  omega

/-- The first `k` columns of a sprite byte drawn: the covered cells of its row are flipped, and a hit is a covered cell
that was set. -/
theorem drawColumns_spec (b y0 x0 : Byte) (r k : Nat) (hk : k ≤ 8) (acc out : Display × Bool)
    (hout : out = (List.range k).foldl
      (fun acc c => drawBit (b.getLsbD (7 - c)) (cellRow y0 r) (cellCol x0 c) acc) acc) :
    (∀ y x, (out.1.pixel y x = true) ↔
      ((acc.1.pixel y x = true) ↔ ¬ (cellRow y0 r = y ∧ ByteCovers b x0 k x))) ∧
    ((out.2 = true) ↔ (acc.2 = true ∨ ∃ x, ByteCovers b x0 k x ∧ acc.1.pixel (cellRow y0 r) x = true)) := by
  induction k generalizing out with
  | zero => simp [hout, ByteCovers]
  | succ k ih =>
    rw [List.range_succ, List.foldl_append, List.foldl_cons, List.foldl_nil] at hout
    obtain ⟨ih1, ih2⟩ := ih (by omega) _ rfl
    obtain ⟨h1, h2⟩ := drawBit_spec (b.getLsbD (7 - k)) (cellRow y0 r) (cellCol x0 k) ((List.range k).foldl
      (fun acc c => drawBit (b.getLsbD (7 - c)) (cellRow y0 r) (cellCol x0 c) acc) acc)
    rw [← hout] at h1 h2
    refine ⟨fun y x => ?_, ?_⟩
    · rw [flipped_twice (ih1 y x) (h1 y x) fun ha hb => byteCovers_disjoint (by omega) ha.2 hb.2.2, byteCovers_succ]
      rw [and_or_left, and_left_comm (a := b.getLsbD (7 - k) = true)]
    · have hold := ih1 (cellRow y0 r) (cellCol x0 k)
      have hnew : ¬ ByteCovers b x0 k (cellCol x0 k) := fun h => byteCovers_disjoint (by omega) h rfl
      rw [h2, ih2, hold]
      simp only [byteCovers_succ]
      constructor
      · rintro ((h | ⟨x, hx, hp⟩) | ⟨hb, hp⟩)
        · exact .inl h
        · exact .inr ⟨x, .inl hx, hp⟩
        · exact .inr ⟨_, .inr ⟨hb, rfl⟩, hp.mpr fun h => hnew h.2⟩
      · rintro (h | ⟨x, hx | ⟨hb, rfl⟩, hp⟩)
        · exact .inl (.inl h)
        · exact .inl (.inr ⟨x, hx, hp⟩)
        · exact .inr ⟨hb, iff_of_true hp fun h => hnew h.2⟩

/-- The rows 0 to n - 1 of the sprite at address `a`, drawn at (y0, x0), have a 1-bit on the cell (y, x). -/
def RowsCover (m : Memory) (a : Nat) (y0 x0 : Byte) (n : Nat) (y : Row) (x : Col) : Prop :=
  ∃ r, r < n ∧ cellRow y0 r = y ∧ ByteCovers (m.read (a + r)) x0 8 x

theorem rowsCover_succ (m : Memory) (a : Nat) (y0 x0 : Byte) (n : Nat) (y : Row) (x : Col) :
    RowsCover m a y0 x0 (n + 1) y x ↔
      (RowsCover m a y0 x0 n y x ∨ (cellRow y0 n = y ∧ ByteCovers (m.read (a + n)) x0 8 x)) := by
  constructor
  · rintro ⟨r, hr, h⟩
    by_cases hrn : r = n
    · exact .inr (hrn ▸ h)
    · exact .inl ⟨r, by omega, h⟩
  · rintro (⟨r, hr, h⟩ | h)
    · exact ⟨r, by omega, h⟩
    · exact ⟨n, by omega, h⟩

/-- At most 32 rows are distinct rows of the display. -/
theorem rowsCover_disjoint {m : Memory} {a : Nat} {y0 x0 : Byte} {n : Nat} (hn : n < 32) {y : Row} {x : Col}
    (h : RowsCover m a y0 x0 n y x) : cellRow y0 n ≠ y := by
  obtain ⟨r, hr, h, -⟩ := h
  intro h'
  rw [cellRow_eq_iff] at h h'
  omega

theorem drawSprite_succ (m : Memory) (a : Nat) (y0 x0 : Byte) (n : Nat) (d : Display) :
    drawSprite m a y0 x0 (n + 1) d = drawByte (m.read (a + n)) y0 x0 n (drawSprite m a y0 x0 n d) := by
  rw [drawSprite, List.range_succ, List.foldl_append]; rfl

/-- A sprite of at most 32 rows drawn: the covered cells are flipped, and there is a collision exactly when a covered
cell was set before (R222, R224). One draw covers no cell twice. -/
theorem drawSprite_spec (m : Memory) (a : Nat) (y0 x0 : Byte) (n : Nat) (hn : n ≤ 32) (d : Display) :
    (∀ y x, ((drawSprite m a y0 x0 n d).1.pixel y x = true) ↔
      ((d.pixel y x = true) ↔ ¬ RowsCover m a y0 x0 n y x)) ∧
    (((drawSprite m a y0 x0 n d).2 = true) ↔ ∃ y x, RowsCover m a y0 x0 n y x ∧ d.pixel y x = true) := by
  induction n with
  | zero => simp [drawSprite, RowsCover]
  | succ n ih =>
    obtain ⟨ih1, ih2⟩ := ih (by omega)
    obtain ⟨h1, h2⟩ := drawColumns_spec (m.read (a + n)) y0 x0 n 8 (Nat.le_refl 8) (drawSprite m a y0 x0 n d) _ rfl
    rw [drawSprite_succ, drawByte]
    refine ⟨fun y x => ?_, ?_⟩
    · rw [flipped_twice (ih1 y x) (h1 y x) fun ha hb => rowsCover_disjoint (by omega) ha hb.1, rowsCover_succ]
    · rw [h2, ih2]
      simp only [rowsCover_succ]
      constructor
      · rintro (⟨y, x, h, hp⟩ | ⟨x, h, hp⟩)
        · exact ⟨y, x, .inl h, hp⟩
        · exact ⟨_, x, .inr ⟨rfl, h⟩, ((ih1 _ x).mp hp).mpr fun hc => rowsCover_disjoint (by omega) hc rfl⟩
      · rintro ⟨y, x, h | ⟨rfl, h⟩, hp⟩
        · exact .inl ⟨y, x, h, hp⟩
        · exact .inr ⟨x, h, (ih1 _ x).mpr (iff_of_true hp fun hc => rowsCover_disjoint (by omega) hc rfl)⟩

end Sys2Proof.Machine
end

