-- ==== Sys2Proof/Laws/Frames.lean ====
section
/-! SUPPORT. The frame of each update an instruction is made of, in the words of Safety.lean. -/

namespace Sys2Proof.Machine

theorem setPc_unchangedExcept (s : State) (a : Word) : UnchangedExcept [.pc] s (s.setPc a) := by
  intro p hp; cases p <;> simp_all [Part.Same]

theorem setI_unchangedExcept (s : State) (a : Word) : UnchangedExcept [.index] s (s.setI a) := by
  intro p hp; cases p <;> simp_all [Part.Same]

theorem setV_unchangedExcept (s : State) (x : Reg) (b : Byte) : UnchangedExcept [.regs] s (s.setV x b) := by
  intro p hp; cases p <;> simp_all [Part.Same]

theorem commit_unchangedExcept (s : State) (x : Reg) (r f : Byte) : UnchangedExcept [.regs] s (s.commit x r f) := by
  intro p hp; cases p <;> simp_all [Part.Same, State.commit]

theorem setV_regsUnchangedExcept (s : State) (x : Reg) (b : Byte) : RegsUnchangedExcept [x] s (s.setV x b) := by
  intro r hr
  have h : x ≠ r := fun h => hr (by simp [h])
  simp [h]

theorem commit_regsUnchangedExcept (s : State) (x : Reg) (r f : Byte) :
    RegsUnchangedExcept [x, vf] s (s.commit x r f) := by
  intro q hq
  have h : x ≠ q ∧ vf ≠ q := ⟨fun h => hq (by simp [h]), fun h => hq (by simp [h])⟩
  simp [State.commit, h.1, h.2]

/-- A fault of instruction `i` is recorded with A and W and changes nothing but what R267 lists. -/
theorem raiseIn_faulted (s : State) (i : Instr) (c : FaultCause) (a : Word) : Faulted i c a s (s.raiseIn i c a) := by
  refine ⟨by simp [State.raiseIn, State.instrAddr], by simp [State.raiseIn], ?_⟩
  intro p hp
  cases p <;> simp_all [Part.Same, State.raiseIn, State.getV, State.getKey]

end Sys2Proof.Machine
end

