-- ==== Sys2Proof/Laws/Memory.lean ====
section
/-! SUPPORT. Laws of memory: a read after a write, that every operation keeps the canonical form, and that the
canonical form makes equal memories equal data (20_memory.md R60, R65, R66). -/

namespace Sys2Proof.Machine

/-! ## Reading -/

@[simp] theorem Memory.read_nil (a : Nat) : Memory.read [] a = unlistedByte a := rfl

theorem Memory.read_cons (k : Nat) (b : Byte) (m : Memory) (a : Nat) :
    Memory.read ((k, b) :: m) a = if k = a then b else Memory.read m a := rfl

theorem Memory.read_insert (m : Memory) (a x : Nat) (b : Byte) :
    (Memory.insert m a b).read x = if a = x then b else m.read x := by
  induction m with
  | nil => rfl
  | cons c m ih =>
    obtain ⟨k, d⟩ := c
    simp only [Memory.insert]
    split
    · rfl
    · split
      · subst a; simp only [Memory.read_cons]; split <;> rfl
      · simp only [Memory.read_cons, ih]; split <;> split <;> simp_all

theorem Memory.read_erase (m : Memory) (a x : Nat) :
    (Memory.erase m a).read x = if a = x then unlistedByte a else m.read x := by
  induction m with
  | nil => simp only [Memory.erase, List.filter_nil, Memory.read_nil]; split <;> simp_all
  | cons c m ih =>
    obtain ⟨k, d⟩ := c
    simp only [Memory.erase] at ih ⊢
    rw [List.filter_cons]
    by_cases hk : k = a
    · subst hk; simp only [bne_self_eq_false, Memory.read_cons]; split <;> simp_all
    · rw [if_pos (by simpa using hk), Memory.read_cons, Memory.read_cons, ih]
      by_cases hx : k = x
      · subst hx; simp [Ne.symm hk]
      · simp [hx]

/-- A byte read after a write: the byte written at its own address, the old byte at any other (R65, R66). -/
theorem Memory.read_write (m : Memory) (a x : Nat) (b : Byte) :
    (Memory.write m a b).read x = if a = x then b else m.read x := by
  simp only [Memory.write]
  split
  · rw [Memory.read_erase]; simp_all
  · exact Memory.read_insert m a x b

/-- A byte read after a list of bytes was written: the list's byte inside [a, a + length), the old byte outside. -/
theorem Memory.read_writeBytes (m : Memory) (a x : Nat) (bs : List Byte) :
    (Memory.writeBytes m a bs).read x =
      if a ≤ x ∧ x < a + bs.length then bs.getD (x - a) 0#8 else m.read x := by
  induction bs generalizing m a with
  | nil => rw [if_neg (by simp)]; rfl
  | cons b bs ih =>
    rw [Memory.writeBytes, ih, Memory.read_write]
    rcases Nat.lt_trichotomy x a with h | h | h
    · rw [if_neg (by omega), if_neg (by omega), if_neg (by omega)]
    · subst h; rw [if_neg (by omega), if_pos rfl, if_pos (by simp)]; simp
    · by_cases h2 : x < a + 1 + bs.length
      · rw [if_pos (by omega), if_pos (by simp only [List.length_cons]; omega)]
        obtain ⟨d, rfl⟩ : ∃ d, x = a + 1 + d := ⟨x - (a + 1), by omega⟩
        rw [show a + 1 + d - (a + 1) = d by omega, show a + 1 + d - a = d + 1 by omega, List.getD_cons_succ]
      · rw [if_neg (by omega), if_neg (by omega), if_neg (by simp only [List.length_cons]; omega)]

theorem Memory.read_writeBytes_outside {m : Memory} {a x : Nat} {bs : List Byte} (h : x < a ∨ a + bs.length ≤ x) :
    (Memory.writeBytes m a bs).read x = m.read x := by
  rw [Memory.read_writeBytes, if_neg (by omega)]

/-! ## The canonical form -/

/-- What the canonical form says, cell by cell. -/
theorem Memory.wf_iff (m : Memory) :
    m.wf = true ↔ m.Pairwise (fun c d => c.1 < d.1) ∧ ∀ c ∈ m, c.1 < memSize ∧ c.2 ≠ unlistedByte c.1 := by
  simp [Memory.wf]

theorem Memory.mem_insert {m : Memory} {a : Nat} {b : Byte} {c : Host.Cell} (h : c ∈ Memory.insert m a b) :
    c = (a, b) ∨ c ∈ m := by
  induction m with
  | nil => exact .inl (by simpa [Memory.insert] using h)
  | cons d m ih =>
    obtain ⟨k, e⟩ := d
    simp only [Memory.insert] at h
    split at h
    · simpa using h
    · split at h
      · rcases List.mem_cons.mp h with h | h
        · exact .inl h
        · exact .inr (List.mem_cons_of_mem _ h)
      · rcases List.mem_cons.mp h with h | h
        · exact .inr (by rw [h]; exact List.mem_cons_self)
        · rcases ih h with h | h
          · exact .inl h
          · exact .inr (List.mem_cons_of_mem _ h)

theorem Memory.insert_pairwise {m : Memory} (h : m.Pairwise (fun c d => c.1 < d.1)) (a : Nat) (b : Byte) :
    (Memory.insert m a b).Pairwise (fun c d => c.1 < d.1) := by
  induction m with
  | nil => simp [Memory.insert]
  | cons d m ih =>
    obtain ⟨k, e⟩ := d
    rw [List.pairwise_cons] at h
    simp only [Memory.insert]
    split
    case isTrue hak =>
      refine List.pairwise_cons.mpr ⟨?_, List.pairwise_cons.mpr h⟩
      intro c hc
      rcases List.mem_cons.mp hc with rfl | hc
      · exact hak
      · exact Nat.lt_trans hak (h.1 c hc)
    case isFalse hak =>
      split
      case isTrue heq => exact List.pairwise_cons.mpr ⟨fun c hc => heq ▸ h.1 c hc, h.2⟩
      case isFalse hne =>
        refine List.pairwise_cons.mpr ⟨?_, ih h.2⟩
        intro c hc
        rcases Memory.mem_insert hc with rfl | hc
        · show k < a; omega
        · exact h.1 c hc

/-- A write inside memory keeps the canonical form. -/
theorem Memory.wf_write {m : Memory} (h : m.wf = true) {a : Nat} (ha : a < memSize) (b : Byte) :
    (Memory.write m a b).wf = true := by
  rw [Memory.wf_iff] at h ⊢
  simp only [Memory.write]
  split
  case isTrue => exact ⟨h.1.filter _, fun c hc => h.2 c (List.mem_of_mem_filter hc)⟩
  case isFalse hne =>
    refine ⟨Memory.insert_pairwise h.1 a b, fun c hc => ?_⟩
    rcases Memory.mem_insert hc with rfl | hc
    · exact ⟨ha, hne⟩
    · exact h.2 c hc

/-- A list of bytes written inside memory keeps the canonical form. -/
theorem Memory.wf_writeBytes {m : Memory} (h : m.wf = true) {a : Nat} {bs : List Byte} (ha : a + bs.length ≤ memSize) :
    (Memory.writeBytes m a bs).wf = true := by
  induction bs generalizing m a with
  | nil => exact h
  | cons b bs ih =>
    simp only [List.length_cons] at ha
    exact ih (Memory.wf_write h (by omega) b) (by omega)

theorem Memory.read_of_lt_head {m : Memory} {a : Nat} (h : ∀ c ∈ m, a < c.1) : m.read a = unlistedByte a := by
  induction m with
  | nil => rfl
  | cons c m ih =>
    obtain ⟨k, d⟩ := c
    have hk : a < k := h (k, d) List.mem_cons_self
    rw [Memory.read_cons, if_neg (by omega)]
    exact ih fun c hc => h c (List.mem_cons_of_mem _ hc)

/-- Two canonical memories that read alike are equal data. -/
theorem Memory.eq_of_read_eq {m n : Memory} (hm : m.wf = true) (hn : n.wf = true) (h : ∀ a, m.read a = n.read a) :
    m = n := by
  rw [Memory.wf_iff] at hm hn
  induction m generalizing n with
  | nil =>
    cases n with
    | nil => rfl
    | cons d n =>
      have := h d.1
      rw [Memory.read_nil, Memory.read_cons, if_pos rfl] at this
      exact absurd this.symm (hn.2 d List.mem_cons_self).2
  | cons c m ih =>
    obtain ⟨k, b⟩ := c
    obtain ⟨hpm, hcm⟩ := hm
    rw [List.pairwise_cons] at hpm
    cases n with
    | nil =>
      have := h k
      rw [Memory.read_nil, Memory.read_cons, if_pos rfl] at this
      exact absurd this (hcm (k, b) List.mem_cons_self).2
    | cons d n =>
      obtain ⟨l, e⟩ := d
      obtain ⟨hpn, hcn⟩ := hn
      rw [List.pairwise_cons] at hpn
      have hkl : k = l := by
        rcases Nat.lt_trichotomy k l with hlt | heq | hgt
        · have h1 := h k
          rw [Memory.read_cons, if_pos rfl, Memory.read_of_lt_head (m := (l, e) :: n)] at h1
          · exact absurd h1 (hcm (k, b) List.mem_cons_self).2
          · intro c hc
            rcases List.mem_cons.mp hc with rfl | hc
            · exact hlt
            · exact Nat.lt_trans hlt (hpn.1 c hc)
        · exact heq
        · have h1 := h l
          rw [Memory.read_cons (m := n), if_pos rfl, Memory.read_of_lt_head (m := (k, b) :: m)] at h1
          · exact absurd h1.symm (hcn (l, e) List.mem_cons_self).2
          · intro c hc
            rcases List.mem_cons.mp hc with rfl | hc
            · exact hgt
            · exact Nat.lt_trans hgt (hpm.1 c hc)
      subst hkl
      have hbe : b = e := by simpa [Memory.read_cons] using h k
      subst hbe
      refine congrArg _ (ih ⟨hpm.2, fun c hc => hcm c (List.mem_cons_of_mem _ hc)⟩
        ⟨hpn.2, fun c hc => hcn c (List.mem_cons_of_mem _ hc)⟩ fun a => ?_)
      by_cases hak : k = a
      · subst hak
        rw [Memory.read_of_lt_head hpm.1, Memory.read_of_lt_head hpn.1]
      · simpa [Memory.read_cons, hak] using h a

/-! ## Reset contents -/

/-- From 0x050 upwards an unlisted byte is 0x00 (R326). -/
theorem unlistedByte_of_le {a : Nat} (h : 0x050 ≤ a) : unlistedByte a = 0#8 := by
  have hl : (fontLow ++ fontHigh).length = 80 := rfl
  rw [unlistedByte, List.getD_eq_getElem?_getD, List.getElem?_eq_none (by omega)]
  rfl

/-- The default font leaves nothing listed: `State.reset`'s memory is the reset memory of R325 and R326. -/
theorem resetMemory_defaultFont : resetMemory defaultFont = [] := by decide +kernel

theorem reset_mem_wf : State.reset.mem.wf = true := rfl

theorem resetMemory_wf (font : Vector Byte 80) : (resetMemory font).wf = true :=
  Memory.wf_writeBytes rfl (by simp [memSize])

end Sys2Proof.Machine
end

