-- ==== Sys2Proof/Laws/PerInstr.lean ====
section
/-! SUPPORT. Statements made per instruction. `SelectsRow`: the row of the opcode map with the instruction's mnemonic
selects the instruction's encoding (30_encoding.md R94). -/

namespace Sys2Proof.Laws.SelectsRow

/-- The opcode map has a row with the mnemonic of `i`, and it selects the word of `i`. -/
def Statement (i : Instr) : Prop := ∃ r ∈ opcodeMap, r.mnemonic = i.mnemonic ∧ r.selects (encode i) = true

/-- What the three masks of the opcode map keep: the primary opcode, and the low nibble or byte. -/
theorem and_maskOp (w : Word) : w &&& 0xF000#16 = (w >>> 12) <<< 12 := by
  apply BitVec.eq_of_getLsbD_eq
  intro i hi
  interval_cases i <;> simp

theorem and_maskOpNibble (w : Word) : w &&& 0xF00F#16 = (w >>> 12) <<< 12 ||| (w <<< 12) >>> 12 := by
  apply BitVec.eq_of_getLsbD_eq
  intro i hi
  interval_cases i <;> simp

theorem and_maskOpByte (w : Word) : w &&& 0xF0FF#16 = (w >>> 12) <<< 12 ||| (w <<< 8) >>> 8 := by
  apply BitVec.eq_of_getLsbD_eq
  intro i hi
  interval_cases i <;> simp

/-- The primary opcode of a word, and the word without what stands above its low nibble or byte. -/
theorem ushiftRight_op {w : Word} {op : Nat} (h : w.toNat / 4096 = op) : w >>> 12 = BitVec.ofNat 16 op := by
  have := w.isLt
  apply BitVec.eq_of_toNat_eq
  rw [BitVec.toNat_ushiftRight, BitVec.toNat_ofNat, Nat.shiftRight_eq_div_pow]
  omega

theorem shiftLeft_nibble {w : Word} {n : Nat} (h : w.toNat % 16 = n) : w <<< 12 = BitVec.ofNat 16 (n * 4096) := by
  apply BitVec.eq_of_toNat_eq
  rw [BitVec.toNat_shiftLeft, BitVec.toNat_ofNat, Nat.shiftLeft_eq]
  omega

theorem shiftLeft_byte {w : Word} {n : Nat} (h : w.toNat % 256 = n) : w <<< 8 = BitVec.ofNat 16 (n * 256) := by
  apply BitVec.eq_of_toNat_eq
  rw [BitVec.toNat_shiftLeft, BitVec.toNat_ofNat, Nat.shiftLeft_eq]
  omega

/-- A row that tests the primary opcode selects the words that have it. -/
theorem selects_of_op {name : String} {v w : Word} {op : Nat} (hw : w.toNat / 4096 = op)
    (hv : BitVec.ofNat 16 op <<< 12 = v) : (OpcodeRow.mk name 0xF000#16 v).selects w = true := by
  simp only [OpcodeRow.selects, and_maskOp, ushiftRight_op hw, hv, beq_self_eq_true]

/-- The same with a function nibble. -/
theorem selects_of_nibble {name : String} {v w : Word} {op n : Nat} (hw : w.toNat / 4096 = op ∧ w.toNat % 16 = n)
    (hv : BitVec.ofNat 16 op <<< 12 ||| BitVec.ofNat 16 (n * 4096) >>> 12 = v) :
    (OpcodeRow.mk name 0xF00F#16 v).selects w = true := by
  simp only [OpcodeRow.selects, and_maskOpNibble, ushiftRight_op hw.1, shiftLeft_nibble hw.2, hv, beq_self_eq_true]

/-- The same with a function byte. -/
theorem selects_of_byte {name : String} {v w : Word} {op n : Nat} (hw : w.toNat / 4096 = op ∧ w.toNat % 256 = n)
    (hv : BitVec.ofNat 16 op <<< 12 ||| BitVec.ofNat 16 (n * 256) >>> 8 = v) :
    (OpcodeRow.mk name 0xF0FF#16 v).selects w = true := by
  simp only [OpcodeRow.selects, and_maskOpByte, ushiftRight_op hw.1, shiftLeft_byte hw.2, hv, beq_self_eq_true]

theorem encodeNNN_op {op : Nat} (h : op < 16) (nnn : Addr12) : (encodeNNN op nnn).toNat / 4096 = op := by
  have := nnn.isLt
  rw [toNat_encodeNNN h]; omega

theorem encodeXNN_op {op : Nat} (h : op < 16) (x : Reg) (nn : Byte) :
    (encodeXNN op x nn).toNat / 4096 = op ∧ (encodeXNN op x nn).toNat % 256 = nn.toNat := by
  have := nn.isLt
  have := x.isLt
  rw [toNat_encodeXNN h]; omega

theorem encodeXYN_op {op : Nat} (h : op < 16) (x y : Reg) (n : Fin 16) :
    (encodeXYN op x y n).toNat / 4096 = op ∧ (encodeXYN op x y n).toNat % 16 = n.val := by
  have := x.isLt
  have := y.isLt
  have := n.isLt
  rw [toNat_encodeXYN h]; omega

theorem clear : Statement .clear := ⟨⟨"clear", 0xFFFF#16, 0x00E0#16⟩, by simp [opcodeMap, opcodeMapLow], rfl, by decide⟩

theorem ret : Statement .ret := ⟨⟨"return", 0xFFFF#16, 0x00EE#16⟩, by simp [opcodeMap, opcodeMapLow], rfl, by decide⟩

theorem legacyCall (nnn : Addr12) : Statement (.legacyCall nnn) :=
  ⟨⟨"legacy-call", 0xF000#16, 0x0000#16⟩, by simp [opcodeMap, opcodeMapLow], rfl,
    selects_of_op (encodeNNN_op (op := 0x0) (by decide) nnn) rfl⟩

theorem jump (nnn : Addr12) : Statement (.jump nnn) :=
  ⟨⟨"jump", 0xF000#16, 0x1000#16⟩, by simp [opcodeMap, opcodeMapLow], rfl,
    selects_of_op (encodeNNN_op (op := 0x1) (by decide) nnn) rfl⟩

theorem call (nnn : Addr12) : Statement (.call nnn) :=
  ⟨⟨"call", 0xF000#16, 0x2000#16⟩, by simp [opcodeMap, opcodeMapLow], rfl,
    selects_of_op (encodeNNN_op (op := 0x2) (by decide) nnn) rfl⟩

theorem skipEqImm (x : Reg) (nn : Byte) : Statement (.skipEqImm x nn) :=
  ⟨⟨"skip-eq-imm", 0xF000#16, 0x3000#16⟩, by simp [opcodeMap, opcodeMapLow], rfl,
    selects_of_op (encodeXNN_op (op := 0x3) (by decide) x nn).1 rfl⟩

theorem skipNeqImm (x : Reg) (nn : Byte) : Statement (.skipNeqImm x nn) :=
  ⟨⟨"skip-neq-imm", 0xF000#16, 0x4000#16⟩, by simp [opcodeMap, opcodeMapLow], rfl,
    selects_of_op (encodeXNN_op (op := 0x4) (by decide) x nn).1 rfl⟩

theorem skipEqReg (x y : Reg) : Statement (.skipEqReg x y) :=
  ⟨⟨"skip-eq-reg", 0xF00F#16, 0x5000#16⟩, by simp [opcodeMap, opcodeMapLow], rfl,
    selects_of_nibble (encodeXYN_op (op := 0x5) (by decide) x y 0x0) rfl⟩

theorem loadImm (x : Reg) (nn : Byte) : Statement (.loadImm x nn) :=
  ⟨⟨"load-imm", 0xF000#16, 0x6000#16⟩, by simp [opcodeMap, opcodeMapLow], rfl,
    selects_of_op (encodeXNN_op (op := 0x6) (by decide) x nn).1 rfl⟩

theorem addImm (x : Reg) (nn : Byte) : Statement (.addImm x nn) :=
  ⟨⟨"add-imm", 0xF000#16, 0x7000#16⟩, by simp [opcodeMap, opcodeMapLow], rfl,
    selects_of_op (encodeXNN_op (op := 0x7) (by decide) x nn).1 rfl⟩

theorem copy (x y : Reg) : Statement (.copy x y) :=
  ⟨⟨"copy", 0xF00F#16, 0x8000#16⟩, by simp [opcodeMap, opcodeMapLow], rfl,
    selects_of_nibble (encodeXYN_op (op := 0x8) (by decide) x y 0x0) rfl⟩

theorem or (x y : Reg) : Statement (.or x y) :=
  ⟨⟨"or", 0xF00F#16, 0x8001#16⟩, by simp [opcodeMap, opcodeMapLow], rfl,
    selects_of_nibble (encodeXYN_op (op := 0x8) (by decide) x y 0x1) rfl⟩

theorem and (x y : Reg) : Statement (.and x y) :=
  ⟨⟨"and", 0xF00F#16, 0x8002#16⟩, by simp [opcodeMap, opcodeMapLow], rfl,
    selects_of_nibble (encodeXYN_op (op := 0x8) (by decide) x y 0x2) rfl⟩

theorem xor (x y : Reg) : Statement (.xor x y) :=
  ⟨⟨"xor", 0xF00F#16, 0x8003#16⟩, by simp [opcodeMap, opcodeMapLow], rfl,
    selects_of_nibble (encodeXYN_op (op := 0x8) (by decide) x y 0x3) rfl⟩

theorem add (x y : Reg) : Statement (.add x y) :=
  ⟨⟨"add", 0xF00F#16, 0x8004#16⟩, by simp [opcodeMap, opcodeMapLow], rfl,
    selects_of_nibble (encodeXYN_op (op := 0x8) (by decide) x y 0x4) rfl⟩

theorem sub (x y : Reg) : Statement (.sub x y) :=
  ⟨⟨"sub", 0xF00F#16, 0x8005#16⟩, by simp [opcodeMap, opcodeMapLow], rfl,
    selects_of_nibble (encodeXYN_op (op := 0x8) (by decide) x y 0x5) rfl⟩

theorem shr (x y : Reg) : Statement (.shr x y) :=
  ⟨⟨"shr", 0xF00F#16, 0x8006#16⟩, by simp [opcodeMap, opcodeMapLow], rfl,
    selects_of_nibble (encodeXYN_op (op := 0x8) (by decide) x y 0x6) rfl⟩

theorem subn (x y : Reg) : Statement (.subn x y) :=
  ⟨⟨"subn", 0xF00F#16, 0x8007#16⟩, by simp [opcodeMap, opcodeMapLow], rfl,
    selects_of_nibble (encodeXYN_op (op := 0x8) (by decide) x y 0x7) rfl⟩

theorem shl (x y : Reg) : Statement (.shl x y) :=
  ⟨⟨"shl", 0xF00F#16, 0x800E#16⟩, by simp [opcodeMap, opcodeMapLow], rfl,
    selects_of_nibble (encodeXYN_op (op := 0x8) (by decide) x y 0xE) rfl⟩

theorem skipNeqReg (x y : Reg) : Statement (.skipNeqReg x y) :=
  ⟨⟨"skip-neq-reg", 0xF00F#16, 0x9000#16⟩, by simp [opcodeMap, opcodeMapLow], rfl,
    selects_of_nibble (encodeXYN_op (op := 0x9) (by decide) x y 0x0) rfl⟩

theorem loadI (nnn : Addr12) : Statement (.loadI nnn) :=
  ⟨⟨"load-I", 0xF000#16, 0xA000#16⟩, by simp [opcodeMap, opcodeMapHigh], rfl,
    selects_of_op (encodeNNN_op (op := 0xA) (by decide) nnn) rfl⟩

theorem jumpPlus (nnn : Addr12) : Statement (.jumpPlus nnn) :=
  ⟨⟨"jump-plus", 0xF000#16, 0xB000#16⟩, by simp [opcodeMap, opcodeMapHigh], rfl,
    selects_of_op (encodeNNN_op (op := 0xB) (by decide) nnn) rfl⟩

theorem rand (x : Reg) (nn : Byte) : Statement (.rand x nn) :=
  ⟨⟨"rand", 0xF000#16, 0xC000#16⟩, by simp [opcodeMap, opcodeMapHigh], rfl,
    selects_of_op (encodeXNN_op (op := 0xC) (by decide) x nn).1 rfl⟩

theorem draw (x y : Reg) (n : Fin 16) : Statement (.draw x y n) :=
  ⟨⟨"draw", 0xF000#16, 0xD000#16⟩, by simp [opcodeMap, opcodeMapHigh], rfl,
    selects_of_op (encodeXYN_op (op := 0xD) (by decide) x y n).1 rfl⟩

theorem skipKeyDown (x : Reg) : Statement (.skipKeyDown x) :=
  ⟨⟨"skip-key-down", 0xF0FF#16, 0xE09E#16⟩, by simp [opcodeMap, opcodeMapHigh], rfl,
    selects_of_byte (encodeXNN_op (op := 0xE) (by decide) x 0x9E#8) rfl⟩

theorem skipKeyUp (x : Reg) : Statement (.skipKeyUp x) :=
  ⟨⟨"skip-key-up", 0xF0FF#16, 0xE0A1#16⟩, by simp [opcodeMap, opcodeMapHigh], rfl,
    selects_of_byte (encodeXNN_op (op := 0xE) (by decide) x 0xA1#8) rfl⟩

theorem readDelay (x : Reg) : Statement (.readDelay x) :=
  ⟨⟨"read-delay", 0xF0FF#16, 0xF007#16⟩, by simp [opcodeMap, opcodeMapHigh], rfl,
    selects_of_byte (encodeXNN_op (op := 0xF) (by decide) x 0x07#8) rfl⟩

theorem waitKey (x : Reg) : Statement (.waitKey x) :=
  ⟨⟨"wait-key", 0xF0FF#16, 0xF00A#16⟩, by simp [opcodeMap, opcodeMapHigh], rfl,
    selects_of_byte (encodeXNN_op (op := 0xF) (by decide) x 0x0A#8) rfl⟩

theorem writeDelay (x : Reg) : Statement (.writeDelay x) :=
  ⟨⟨"write-delay", 0xF0FF#16, 0xF015#16⟩, by simp [opcodeMap, opcodeMapHigh], rfl,
    selects_of_byte (encodeXNN_op (op := 0xF) (by decide) x 0x15#8) rfl⟩

theorem writeSound (x : Reg) : Statement (.writeSound x) :=
  ⟨⟨"write-sound", 0xF0FF#16, 0xF018#16⟩, by simp [opcodeMap, opcodeMapHigh], rfl,
    selects_of_byte (encodeXNN_op (op := 0xF) (by decide) x 0x18#8) rfl⟩

theorem addI (x : Reg) : Statement (.addI x) :=
  ⟨⟨"add-I", 0xF0FF#16, 0xF01E#16⟩, by simp [opcodeMap, opcodeMapHigh], rfl,
    selects_of_byte (encodeXNN_op (op := 0xF) (by decide) x 0x1E#8) rfl⟩

theorem spriteAddr (x : Reg) : Statement (.spriteAddr x) :=
  ⟨⟨"sprite-addr", 0xF0FF#16, 0xF029#16⟩, by simp [opcodeMap, opcodeMapHigh], rfl,
    selects_of_byte (encodeXNN_op (op := 0xF) (by decide) x 0x29#8) rfl⟩

theorem bcd (x : Reg) : Statement (.bcd x) :=
  ⟨⟨"bcd", 0xF0FF#16, 0xF033#16⟩, by simp [opcodeMap, opcodeMapHigh], rfl,
    selects_of_byte (encodeXNN_op (op := 0xF) (by decide) x 0x33#8) rfl⟩

theorem storeRegs (x : Reg) : Statement (.storeRegs x) :=
  ⟨⟨"store-regs", 0xF0FF#16, 0xF055#16⟩, by simp [opcodeMap, opcodeMapHigh], rfl,
    selects_of_byte (encodeXNN_op (op := 0xF) (by decide) x 0x55#8) rfl⟩

theorem loadRegs (x : Reg) : Statement (.loadRegs x) :=
  ⟨⟨"load-regs", 0xF0FF#16, 0xF065#16⟩, by simp [opcodeMap, opcodeMapHigh], rfl,
    selects_of_byte (encodeXNN_op (op := 0xF) (by decide) x 0x65#8) rfl⟩

end Sys2Proof.Laws.SelectsRow
end

