-- ==== Sys2Proof/Laws/Step.lean ====
section
/-! SUPPORT. What a step, a pass, its phases and the execution of one instruction can do, said once. -/

namespace Sys2Proof.Machine

/-! ## The step and the pass -/

/-- A step whose event is a pass, with `rst` released, is that pass (R280). -/
theorem step_of_passWith {s : State} {p : PassInputs} (h : PassWith s p) : step s = runPass p s.takeEvent := by
  obtain ⟨hr, he⟩ := h
  simp [step, he, applyEvent, hostPass, hr]

/-- Everything a pass can do (R280, R281, R284, R286, R287). -/
theorem runPass_cases (p : PassInputs) (s : State) :
    let t := (s.setPorts p).clearOutputs
    (s.runState = .halted ∧ runPass p s = .next t) ∨
    (s.runState ≠ .halted ∧ p.quit = true ∧ runPass p s = .next (t.keyPhase.halt .quit)) ∨
    (s.runState ≠ .halted ∧ p.quit = false ∧ runPass p s = executePhase t.keyPhase.timerPhase) := by
  have hq : ∀ (l : List KeyEvent) (t : State), (l.foldl State.keyEvent t).ports = t.ports := by
    intro l
    induction l with
    | nil => intro t; rfl
    | cons e l ih => intro t; rw [List.foldl_cons, ih]; simp only [State.keyEvent]; split <;> simp
  by_cases hh : s.runState = .halted
  · exact .inl ⟨hh, by simp [runPass, hh]⟩
  · have h2 : (((s.setPorts p).clearOutputs).keyPhase).ports = p := by rw [State.keyPhase, hq]; rfl
    cases hp : p.quit
    · exact .inr (.inr ⟨hh, rfl, by simp [runPass, hh, afterInput, h2, hp]⟩)
    · exact .inr (.inl ⟨hh, rfl, by simp [runPass, hh, afterInput, h2, hp]⟩)

/-- Phases (c) and (d): the pass ends, or one instruction is executed and its push made (R286, R287). -/
theorem executePhase_cases (s : State) :
    ((s.runState = .waiting ∨ s.ports.execTick = false) ∧ executePhase s = .next s) ∨
    (s.runState ≠ .waiting ∧ s.ports.execTick = true ∧ executePhase s = afterInstruction (executeOne s)) := by
  by_cases hw : s.runState = .waiting
  · exact .inl ⟨.inl hw, by simp [executePhase, hw]⟩
  · cases ht : s.ports.execTick
    · exact .inl ⟨.inr rfl, by simp [executePhase, hw, ht]⟩
    · exact .inr ⟨hw, rfl, by simp [executePhase, hw, ht]⟩

/-- Executing one instruction: a fetch fault, an unknown word, or the meaning of the decoded instruction with pc advanced
(30_encoding.md R101, R102). -/
theorem executeOne_cases (s : State) :
    (s.fetchWord = none ∧ executeOne s = .next (s.raiseFault (fetchFault s.pc))) ∨
    (∃ w e, s.fetchWord = some w ∧ decodeWord w = .error e ∧
      executeOne s = .next (s.advance.raiseFault (unknownFault s.pc w))) ∨
    (∃ w i, s.fetchWord = some w ∧ decodeWord w = .ok i ∧ executeOne s = exec i s.advance) := by
  cases hw : s.fetchWord with
  | none => exact .inl ⟨rfl, by simp [executeOne, hw]⟩
  | some w =>
    cases hd : decodeWord w with
    | error e => exact .inr (.inl ⟨w, e, rfl, hd, by simp [executeOne, hw, hd]⟩)
    | ok i => exact .inr (.inr ⟨w, i, rfl, hd, by simp [executeOne, hw, hd]⟩)

/-- A word can be fetched exactly when both its bytes are in memory (R102). -/
theorem State.fetchWord_eq_none_iff (s : State) : s.fetchWord = none ↔ 0xFFF < s.pc.toNat + 1 := by
  simp only [State.fetchWord]; split <;> simp_all

/-- The push after the instruction ends the request; nothing else but the display output changes (R287). -/
theorem State.finishPush_eq (s : State) :
    s.finishPush = if s.pushPending then (s.pushDisplay.setPushPending false) else s := rfl

/-- The outcome of the push after an instruction is next exactly when the instruction's is. -/
theorem afterInstruction_eq_next_iff (o : Host.Outcome State Fault Refusal) (t : State) :
    afterInstruction o = .next t ↔ ∃ u, o = .next u ∧ t = u.finishPush := by
  cases o <;> simp [afterInstruction, eq_comm]

/-! ## The phases before the instruction -/

/-- One key event: its key's state, and a key-down that finds WAITING also writes V[wait_reg] and wakes (R282, R283). -/
theorem State.keyEvent_cases (s : State) (e : KeyEvent) :
    ((e.down = false ∨ s.runState ≠ .waiting) ∧ s.keyEvent e = s.setKey e.key e.down) ∨
    (e.down = true ∧ s.runState = .waiting ∧
      s.keyEvent e = ((s.setKey e.key e.down).setV s.waitReg (keyByte e.key)).wake) := by
  cases hd : e.down
  · exact .inl ⟨.inl rfl, by simp [State.keyEvent, hd]⟩
  · by_cases hw : s.runState = .waiting
    · exact .inr ⟨rfl, hw, by simp [State.keyEvent, hd, hw]⟩
    · exact .inl ⟨.inr hw, by simp [State.keyEvent, hd, hw]⟩

/-- What every key event, and so all of phase (a), leaves as it was. -/
theorem State.keyEvent_frame (s : State) (e : KeyEvent) :
    (s.keyEvent e).i = s.i ∧ (s.keyEvent e).pc = s.pc ∧ (s.keyEvent e).callStack = s.callStack ∧
    (s.keyEvent e).dt = s.dt ∧ (s.keyEvent e).st = s.st ∧ (s.keyEvent e).disp = s.disp ∧
    (s.keyEvent e).mem = s.mem ∧ (s.keyEvent e).waitReg = s.waitReg ∧ (s.keyEvent e).haltReason = s.haltReason ∧
    (s.keyEvent e).cfg = s.cfg ∧ (s.keyEvent e).fault = s.fault ∧ (s.keyEvent e).pushPending = s.pushPending ∧
    (s.keyEvent e).displayOut = s.displayOut ∧ (s.keyEvent e).faultEvent = s.faultEvent ∧
    (s.keyEvent e).ports = s.ports ∧ (s.keyEvent e).rst = s.rst ∧ (s.keyEvent e).font = s.font ∧
    (s.keyEvent e).pending = s.pending ∧ (s.keyEvent e).stepNo = s.stepNo := by
  rcases State.keyEvent_cases s e with ⟨-, h⟩ | ⟨-, -, h⟩ <;> rw [h] <;> simp

/-- What holds of the state and is kept by every key event holds after all of them. -/
theorem State.foldl_keyEvent_induction {P : State → Prop} (hstep : ∀ s e, P s → P (s.keyEvent e)) :
    ∀ (l : List KeyEvent) (s : State), P s → P (l.foldl State.keyEvent s)
  | [], _, h => h
  | e :: l, s, h => State.foldl_keyEvent_induction hstep l (s.keyEvent e) (hstep s e h)

/-- Phase (a) changes only the keys, and by resolving a wait V[wait_reg] and the run state (R282, R283). -/
@[simp] theorem State.keyPhase_frame (s : State) :
    s.keyPhase.i = s.i ∧ s.keyPhase.pc = s.pc ∧ s.keyPhase.callStack = s.callStack ∧ s.keyPhase.dt = s.dt ∧
    s.keyPhase.st = s.st ∧ s.keyPhase.disp = s.disp ∧ s.keyPhase.mem = s.mem ∧ s.keyPhase.waitReg = s.waitReg ∧
    s.keyPhase.haltReason = s.haltReason ∧ s.keyPhase.cfg = s.cfg ∧ s.keyPhase.fault = s.fault ∧
    s.keyPhase.pushPending = s.pushPending ∧ s.keyPhase.displayOut = s.displayOut ∧
    s.keyPhase.faultEvent = s.faultEvent ∧ s.keyPhase.ports = s.ports ∧ s.keyPhase.rst = s.rst ∧
    s.keyPhase.font = s.font ∧ s.keyPhase.pending = s.pending ∧ s.keyPhase.stepNo = s.stepNo := by
  refine State.foldl_keyEvent_induction (P := fun t => t.i = s.i ∧ t.pc = s.pc ∧ t.callStack = s.callStack ∧
    t.dt = s.dt ∧ t.st = s.st ∧ t.disp = s.disp ∧ t.mem = s.mem ∧ t.waitReg = s.waitReg ∧
    t.haltReason = s.haltReason ∧ t.cfg = s.cfg ∧ t.fault = s.fault ∧ t.pushPending = s.pushPending ∧
    t.displayOut = s.displayOut ∧ t.faultEvent = s.faultEvent ∧ t.ports = s.ports ∧ t.rst = s.rst ∧
    t.font = s.font ∧ t.pending = s.pending ∧ t.stepNo = s.stepNo) (fun t e h => ?_) _ s (by simp)
  simpa only [State.keyEvent_frame t e] using h

/-- In a state that is not WAITING no key event writes a register or the run state (R283). -/
theorem State.keyPhase_of_not_waiting {s : State} (h : s.runState ≠ .waiting) :
    s.keyPhase.runState = s.runState ∧ s.keyPhase.v = s.v := by
  refine State.foldl_keyEvent_induction (P := fun t => t.runState = s.runState ∧ t.v = s.v)
    (fun t e ⟨h1, h2⟩ => ?_) _ s ⟨rfl, rfl⟩
  rcases State.keyEvent_cases t e with ⟨-, hk⟩ | ⟨-, hw, -⟩
  · rw [hk]; exact ⟨h1, h2⟩
  · exact absurd (h1 ▸ hw) h

/-- Phase (b): nothing without a tick; with one, both timers count down and the display may be pushed (R285). -/
theorem State.timerPhase_cases (s : State) :
    (s.ports.timerTick = false ∧ s.timerPhase = s) ∨
    (s.ports.timerTick = true ∧ s.cfg.drawOnCall = true ∧ s.timerPhase = s.countTimers) ∨
    (s.ports.timerTick = true ∧ s.cfg.drawOnCall = false ∧ s.timerPhase = s.countTimers.pushDisplay) := by
  cases ht : s.ports.timerTick
  · exact .inl ⟨rfl, by simp [State.timerPhase, ht]⟩
  · cases hd : s.cfg.drawOnCall
    · exact .inr (.inr ⟨rfl, rfl, by simp [State.timerPhase, ht, hd]⟩)
    · exact .inr (.inl ⟨rfl, rfl, by simp [State.timerPhase, ht, hd]⟩)

/-- A counted-down timer is 1 less, and 0 stays 0 (R285). -/
theorem countdown_toNat (b : Byte) : (countdown b).toNat = b.toNat - 1 := by
  simp only [countdown]
  split
  · subst b; rfl
  · rename_i h
    have h1 : b.toNat ≠ 0 := fun h0 => h (BitVec.eq_of_toNat_eq h0)
    have := b.isLt
    rw [BitVec.toNat_sub]
    simp only [BitVec.toNat_ofNat]
    omega

/-- Phase (b) changes only the timers and the display output (R285). -/
@[simp] theorem State.timerPhase_frame (s : State) :
    s.timerPhase.v = s.v ∧ s.timerPhase.i = s.i ∧ s.timerPhase.pc = s.pc ∧ s.timerPhase.callStack = s.callStack ∧
    s.timerPhase.disp = s.disp ∧ s.timerPhase.keys = s.keys ∧ s.timerPhase.mem = s.mem ∧
    s.timerPhase.runState = s.runState ∧ s.timerPhase.waitReg = s.waitReg ∧
    s.timerPhase.haltReason = s.haltReason ∧ s.timerPhase.cfg = s.cfg ∧ s.timerPhase.fault = s.fault ∧
    s.timerPhase.pushPending = s.pushPending ∧ s.timerPhase.faultEvent = s.faultEvent ∧
    s.timerPhase.ports = s.ports ∧ s.timerPhase.rst = s.rst ∧ s.timerPhase.font = s.font ∧
    s.timerPhase.pending = s.pending ∧ s.timerPhase.stepNo = s.stepNo := by
  rcases State.timerPhase_cases s with ⟨-, h⟩ | ⟨-, -, h⟩ | ⟨-, -, h⟩ <;> rw [h] <;> simp [State.countTimers]

/-! ## The states a pass goes through -/

/-- The start of a pass samples the inputs, clears the outputs and takes the event; the rest is as before (R280). -/
@[simp] theorem State.passStart_frame (s : State) (p : PassInputs) :
    (s.passStart p).v = s.v ∧ (s.passStart p).i = s.i ∧ (s.passStart p).pc = s.pc ∧
    (s.passStart p).callStack = s.callStack ∧ (s.passStart p).dt = s.dt ∧ (s.passStart p).st = s.st ∧
    (s.passStart p).disp = s.disp ∧ (s.passStart p).keys = s.keys ∧ (s.passStart p).mem = s.mem ∧
    (s.passStart p).runState = s.runState ∧ (s.passStart p).waitReg = s.waitReg ∧
    (s.passStart p).haltReason = s.haltReason ∧ (s.passStart p).cfg = s.cfg ∧ (s.passStart p).fault = s.fault ∧
    (s.passStart p).pushPending = false ∧ (s.passStart p).displayOut = none ∧ (s.passStart p).faultEvent = false ∧
    (s.passStart p).ports = p ∧ (s.passStart p).rst = s.rst ∧ (s.passStart p).font = s.font ∧
    (s.passStart p).pending = s.pending.tail ∧ (s.passStart p).stepNo = s.stepNo + 1 :=
  ⟨rfl, rfl, rfl, rfl, rfl, rfl, rfl, rfl, rfl, rfl, rfl, rfl, rfl, rfl, rfl, rfl, rfl, rfl, rfl, rfl, rfl, rfl⟩

/-- Phase (a) neither enters nor leaves HALTED (R281, R283). -/
theorem State.keyPhase_runState_eq_halted_iff (s : State) : s.keyPhase.runState = .halted ↔ s.runState = .halted := by
  refine State.foldl_keyEvent_induction (P := fun t => t.runState = .halted ↔ s.runState = .halted)
    (fun t e ht => ?_) _ s Iff.rfl
  rcases State.keyEvent_cases t e with ⟨-, hk⟩ | ⟨-, hw, hk⟩
  · rw [hk]; exact ht
  · rw [hk, ← ht, hw]; simp

/-- What phase (d) executes in: the fetch reads the memory and pc of before the pass. -/
theorem State.slotState_fetchWord (s : State) (p : PassInputs) : (s.slotState p).fetchWord = s.fetchWord := by
  simp [State.fetchWord, State.slotState]

/-- A pass that is running after phase (a), without a quit and with an execution slot, executes one instruction in its
slot state (R287). -/
theorem step_of_slot {s : State} {p : PassInputs} (h : PassWith s p)
    (hr : (s.passStart p).keyPhase.runState = .running) (hq : p.quit = false) (he : p.execTick = true) :
    step s = afterInstruction (executeOne (s.slotState p)) := by
  have hh : s.takeEvent.runState ≠ .halted := fun hh => by
    have := (State.keyPhase_runState_eq_halted_iff (s.passStart p)).mpr hh
    simp [hr] at this
  rw [step_of_passWith h]
  rcases runPass_cases p s.takeEvent with ⟨h1, -⟩ | ⟨-, h1, -⟩ | ⟨-, -, h1⟩
  · exact absurd h1 hh
  · simp [hq] at h1
  · rw [h1]
    rcases executePhase_cases (s.slotState p) with ⟨hx | hx, -⟩ | ⟨-, -, hx⟩
    · simp [State.slotState, hr] at hx
    · simp [State.slotState, he] at hx
    · exact hx

/-- A pass that is WAITING after phase (a), without a quit, ends after phase (b) (R286). -/
theorem step_of_waiting {s : State} {p : PassInputs} (h : PassWith s p)
    (hr : (s.passStart p).keyPhase.runState = .waiting) (hq : p.quit = false) : step s = .next (s.slotState p) := by
  have hh : s.takeEvent.runState ≠ .halted := fun hh => by
    have := (State.keyPhase_runState_eq_halted_iff (s.passStart p)).mpr hh
    simp [hr] at this
  rw [step_of_passWith h]
  rcases runPass_cases p s.takeEvent with ⟨h1, -⟩ | ⟨-, h1, -⟩ | ⟨-, -, h1⟩
  · exact absurd h1 hh
  · simp [hq] at h1
  · rw [h1]
    rcases executePhase_cases (s.slotState p) with ⟨-, hx⟩ | ⟨hx, -⟩
    · exact hx
    · simp [State.slotState, hr] at hx

end Sys2Proof.Machine
end

