-- ==== Sys2Proof/Tests/Slice0.lean ====
section
/-! SUPPORT. Tests of one step each, with expected results from 95_test_vectors.md (E, CF, A, M, D, K, S and R rows) and
from the examples of the instruction rules, and a witness for the hypotheses of every obligation that has some. -/

namespace Sys2Proof.Tests

open Sys2Proof Sys2Proof.Machine

set_option Elab.async false

/-! ## Builders -/

/-- The next state of an outcome. -/
def nextOf (o : Host.Outcome State Fault Refusal) : Option State :=
  match o with
  | .next t => some t
  | .fault _ => none
  | .refused _ => none

/-- Registers set, in order. -/
def regs (l : List (Reg × Byte)) (s : State) : State := l.foldl (fun s p => s.setV p.1 p.2) s

/-- Bytes written from `a` upwards. -/
def bytes (a : Nat) (l : List Byte) (s : State) : State := s.setMem (s.mem.writeBytes a l)

/-- Pixels switched on, as (row, column). -/
def pixels (l : List (Row × Col)) (s : State) : State :=
  s.setDisp (l.foldl (fun d p => d.flip p.1 p.2) s.disp)

/-- A configuration set. -/
def config (c : Cfg) (s : State) : State := { s with cfg := c }

/-- The inputs of a pass with nothing in it. -/
def idle : PassInputs := State.reset.ports

/-- A pass with an execution slot and nothing else. -/
def slot : PassInputs := execOnly idle

/-- The next host event set. -/
def event (e : HostEvent) (s : State) : State := { s with pending := [e] }

/-- The word placed at 0x200 and one pass run with it, from the state right after reset changed by `f`. -/
def run (w : Nat) (f : State → State) : Option State := nextOf (step ((f State.reset).withFetchWord 16 w))

/-- The word placed at 0x200 and one pass with the inputs `p`. -/
def runWith (p : PassInputs) (w : Nat) (f : State → State) : Option State :=
  nextOf (step (event (.pass p) ((f State.reset).withFetchWord 16 w)))

/-- The fault record, the run state, the halt reason and pc of a state. -/
def faultView (t : State) : FaultRecord × RunState × HaltReason × Word := (t.fault, t.runState, t.haltReason, t.pc)

/-! ## WellFormed: an ill-formed term for its check -/

theorem test_wellFormed_refuses_legacyCall_0E0 : WellFormed (.legacyCall 0x0E0#12) = false := by decide

theorem test_wellFormed_refuses_legacyCall_0EE : WellFormed (.legacyCall 0x0EE#12) = false := by decide

/-! ## Decoding: words written out from the rows of R94 -/

theorem test_decode_fixed_and_nnn :
    [0x00E0, 0x00EE, 0x0123, 0x1ABC, 0x2400, 0xA2F0, 0xB300].map (decodeTableWord 16) =
      [some .clear, some .ret, some (.legacyCall 0x123#12), some (.jump 0xABC#12), some (.call 0x400#12),
       some (.loadI 0x2F0#12), some (.jumpPlus 0x300#12)] := by decide +kernel

theorem test_decode_xnn :
    [0x3342, 0x4219, 0x6A5C, 0x7002, 0xC30F].map (decodeTableWord 16) =
      [some (.skipEqImm 3 0x42#8), some (.skipNeqImm 2 0x19#8), some (.loadImm 10 0x5C#8), some (.addImm 0 0x02#8),
       some (.rand 3 0x0F#8)] := by decide +kernel

theorem test_decode_xy_and_xyn :
    [0x5120, 0x8A10, 0x8A11, 0x8A12, 0x8A13, 0x8A14, 0x8A15, 0x8A16, 0x8A17, 0x8A1E, 0x9120, 0xD12F].map
        (decodeTableWord 16) =
      [some (.skipEqReg 1 2), some (.copy 10 1), some (.or 10 1), some (.and 10 1), some (.xor 10 1), some (.add 10 1),
       some (.sub 10 1), some (.shr 10 1), some (.subn 10 1), some (.shl 10 1), some (.skipNeqReg 1 2),
       some (.draw 1 2 15)] := by decide +kernel

theorem test_decode_x :
    [0xE49E, 0xE4A1, 0xF507, 0xF30A, 0xF515, 0xF518, 0xF11E, 0xF029, 0xF533, 0xF255, 0xF165].map
        (decodeTableWord 16) =
      [some (.skipKeyDown 4), some (.skipKeyUp 4), some (.readDelay 5), some (.waitKey 3), some (.writeDelay 5),
       some (.writeSound 5), some (.addI 1), some (.spriteAddr 0), some (.bcd 5), some (.storeRegs 2),
       some (.loadRegs 1)] := by decide +kernel

/-- E4 to E10: unknown words. -/
theorem test_decode_unknown :
    [0x5121, 0x8008, 0x800F, 0x9AB1, 0xE09F, 0xF000, 0xF0FF, 0xFFFF].map (decodeTableWord 16) =
      List.replicate 8 none := by decide +kernel

/-- R96's count of unknown words, checked group by group on the low byte. -/
theorem test_decode_unknown_counts :
    ((List.range 256).filter fun n => (decodeTableWord 16 (0xE000 + n)).isNone).length * 16 = 4064 ∧
      ((List.range 256).filter fun n => (decodeTableWord 16 (0xF000 + n)).isNone).length * 16 = 3952 ∧
      ((List.range 256).filter fun n => (decodeTableWord 16 (0x8000 + n)).isNone).length * 16 = 1792 := by
  decide +kernel

theorem test_decodeBytes_rest : (match decodeBytes [0x12#8, 0x34#8, 0xFF#8] with
    | .ok (i, rest) => some (i, rest)
    | .error _ => none) = some (.jump 0x234#12, [0xFF#8]) := by decide +kernel

theorem test_decodeBytes_truncated : (match decodeBytes [0x12#8] with
    | .ok _ => none
    | .error e => some e) = some .truncated := by decide +kernel

/-! ## Control flow -/

/-- CF1 -/
theorem test_jump : (run 0x1ABC id).map (·.pc) = some 0xABC#16 := by decide +kernel

/-- E2: nothing but pc. -/
theorem test_legacyCall : (run 0x0123 id).map (fun t => (t.pc, t.v, t.mem.length, t.fault.cause)) =
    some (0x202#16, State.reset.v, 2, .none) := by decide +kernel

/-- CF2 -/
theorem test_call : (run 0x2400 id).map (fun t => (t.pc, t.callStack.sp, t.callStack.entries.head?)) =
    some (0x400#16, 1, some 0x202#16) := by decide +kernel

/-- CF3 -/
theorem test_call_full : (run 0x2400 fun s => s.setCallStack { s.callStack with sp := 16 }).map faultView =
    some (⟨.stackOverflow, 0x200#16, 0x2400#16, 0#16⟩, .halted, .fault, 0x202#16) := by decide +kernel

/-- CF4 -/
theorem test_ret : (run 0x00EE fun s => (s.setPc 0x300#16).setCallStack { entries := [0x206#16], sp := 1 }).map
    (fun t => (t.pc, t.callStack.sp)) = some (0x206#16, 0) := by decide +kernel

/-- CF6 -/
theorem test_ret_empty_skip :
    (run 0x00EE (config { Cfg.default with stackUnderflowPolicy := .skip })).map faultView =
      some (⟨.stackUnderflow, 0x200#16, 0x00EE#16, 0#16⟩, .running, .none, 0x202#16) := by decide +kernel

/-- CF8 and CF9 -/
theorem test_skipEqImm : [run 0x3342 (regs [(3, 0x42#8)]), run 0x3342 (regs [(3, 0x41#8)])].map (Option.map (·.pc)) =
    [some 0x204#16, some 0x202#16] := by decide +kernel

/-- CF10 and CF11 -/
theorem test_skipNeqImm : [run 0x4342 (regs [(3, 0x41#8)]), run 0x4342 (regs [(3, 0x42#8)])].map (Option.map (·.pc)) =
    [some 0x204#16, some 0x202#16] := by decide +kernel

/-- CF12 and CF13 -/
theorem test_skipEqReg :
    [run 0x5120 (regs [(1, 7#8), (2, 7#8)]), run 0x5120 (regs [(1, 7#8), (2, 8#8)])].map (Option.map (·.pc)) =
      [some 0x204#16, some 0x202#16] := by decide +kernel

/-- CF14 and CF15 -/
theorem test_skipNeqReg :
    [run 0x9120 (regs [(1, 7#8), (2, 8#8)]), run 0x9120 (regs [(1, 7#8), (2, 7#8)])].map (Option.map (·.pc)) =
      [some 0x204#16, some 0x202#16] := by decide +kernel

/-- CF18, first pass: the sum may leave memory. -/
theorem test_jumpPlus : (run 0xBFFF (regs [(0, 0xFF#8)])).map (fun t => (t.pc, t.runState)) =
    some (0x10FE#16, .running) := by decide +kernel

/-! ## Registers and arithmetic -/

/-- A1 -/
theorem test_loadImm : (run 0x6A5C id).map (fun t => (t.getV 10, t.getV vf, t.pc)) =
    some (0x5C#8, 0#8, 0x202#16) := by decide +kernel

/-- A2: wraps, no flag. -/
theorem test_addImm : (run 0x7002 (regs [(0, 0xFF#8), (vf, 5#8)])).map (fun t => (t.getV 0, t.getV vf)) =
    some (1#8, 5#8) := by decide +kernel

/-- A4 -/
theorem test_copy : (run 0x8010 (regs [(1, 0x42#8)])).map (fun t => (t.getV 0, t.getV 1)) =
    some (0x42#8, 0x42#8) := by decide +kernel

/-- A5 -/
theorem test_or : (run 0x8011 (regs [(0, 0x0F#8), (1, 0xF0#8), (vf, 7#8)])).map (fun t => (t.getV 0, t.getV vf)) =
    some (0xFF#8, 7#8) := by decide +kernel

/-- A8: X = F under the quirk. -/
theorem test_or_quirk_vf :
    (run 0x8F11 fun s => regs [(vf, 0x0C#8), (1, 3#8)] (config { Cfg.default with bitwiseQuirk := true } s)).map
      (·.getV vf) = some 0#8 := by decide +kernel

/-- A10 -/
theorem test_and : (run 0x8012 fun s =>
    regs [(0, 0x3C#8), (1, 0x0F#8), (vf, 9#8)] (config { Cfg.default with bitwiseQuirk := true } s)).map
      (fun t => (t.getV 0, t.getV vf)) = some (0x0C#8, 0#8) := by decide +kernel

/-- A11 -/
theorem test_xor : (run 0x8013 (regs [(0, 0xFF#8), (1, 0x0F#8)])).map (fun t => (t.getV 0, t.getV vf)) =
    some (0xF0#8, 0#8) := by decide +kernel

/-- A15: X = F keeps the carry. -/
theorem test_add_vf : (run 0x8F14 (regs [(vf, 0xFF#8), (1, 2#8)])).map (·.getV vf) = some 1#8 := by decide +kernel

/-- A16: Y = F adds VF's old value. -/
theorem test_add_from_vf : (run 0x82F4 (regs [(2, 0x10#8), (vf, 1#8)])).map (fun t => (t.getV 2, t.getV vf)) =
    some (0x11#8, 0#8) := by decide +kernel

/-- A18 -/
theorem test_sub_borrow : (run 0x8215 (regs [(2, 1#8), (1, 2#8)])).map (fun t => (t.getV 2, t.getV vf)) =
    some (0xFF#8, 0#8) := by decide +kernel

/-- A22: Y = F subtracts VF's old value. -/
theorem test_sub_from_vf : (run 0x82F5 (regs [(2, 0x10#8), (vf, 1#8)])).map (fun t => (t.getV 2, t.getV vf)) =
    some (0x0F#8, 1#8) := by decide +kernel

/-- A23 -/
theorem test_shr : (run 0x8016 (regs [(0, 3#8), (1, 0xF0#8)])).map (fun t => (t.getV 0, t.getV vf)) =
    some (1#8, 1#8) := by decide +kernel

/-- A24: the quirk shifts V[Y]. -/
theorem test_shr_quirk : (run 0x8016 fun s =>
    regs [(0, 3#8), (1, 0xF0#8)] (config { Cfg.default with shiftQuirk := true } s)).map
      (fun t => (t.getV 0, t.getV vf)) = some (0x78#8, 0#8) := by decide +kernel

/-- A28 -/
theorem test_subn : (run 0x8017 (regs [(0, 5#8), (1, 3#8)])).map (fun t => (t.getV 0, t.getV vf)) =
    some (0xFE#8, 0#8) := by decide +kernel

/-- A32 -/
theorem test_shl : (run 0x800E (regs [(0, 0x81#8)])).map (fun t => (t.getV 0, t.getV vf)) =
    some (2#8, 1#8) := by decide +kernel

/-- A36 -/
theorem test_rand : (run 0xC30F fun s => s.setPorts { idle with randByte := 0xAB#8 }).map (·.getV 3) =
    some 0x0B#8 := by decide +kernel

/-! ## Index register and memory -/

/-- M1 -/
theorem test_loadI : (run 0xA123 id).map (·.i) = some 0x123#16 := by decide +kernel

/-- M3: 16-bit wrap; VF not written. -/
theorem test_addI : (run 0xF01E fun s => regs [(0, 2#8), (vf, 7#8)] (s.setI 0xFFFF#16)).map
    (fun t => (t.i, t.getV vf)) = some (1#16, 7#8) := by decide +kernel

/-- M6: no mask. -/
theorem test_spriteAddr : (run 0xF029 (regs [(0, 0xFF#8)])).map (·.i) = some 0x4FB#16 := by decide +kernel

/-- M7 -/
theorem test_bcd :
    (run 0xF533 fun s => bytes 0x300 [0xEE#8, 0xEE#8, 0xEE#8, 0xEE#8] (regs [(5, 0xFF#8)] (s.setI 0x300#16))).map
      (fun t => ([0x300, 0x301, 0x302, 0x303].map t.mem.read, t.i)) =
      some ([2#8, 5#8, 5#8, 0xEE#8], 0x300#16) := by decide +kernel

/-- M10: nothing written. -/
theorem test_bcd_bounds : (run 0xF533 fun s => regs [(5, 0x80#8)] (s.setI 0xFFE#16)).map
    (fun t => (faultView t, [0xFFE, 0xFFF].map t.mem.read)) =
      some ((⟨.memBoundsData, 0x200#16, 0xF533#16, 0x1000#16⟩, .halted, .fault, 0x202#16), [0#8, 0#8]) := by
  decide +kernel

/-- M12 -/
theorem test_storeRegs : (run 0xF255 fun s => config { Cfg.default with incrementMode := .x }
    (regs [(0, 1#8), (1, 2#8), (2, 3#8)] (s.setI 0x300#16))).map
      (fun t => ([0x300, 0x301, 0x302, 0x303].map t.mem.read, t.i)) =
      some ([1#8, 2#8, 3#8, 0#8], 0x302#16) := by decide +kernel

/-- M17: all sixteen, up to the last byte. -/
theorem test_storeRegs_all : (run 0xFF55 fun s => regs [(vf, 0xEE#8)] (s.setI 0xFF0#16)).map
    (fun t => (t.mem.read 0xFFF, t.mem.read 0xFFE, t.i)) = some (0xEE#8, 0#8, 0x1000#16) := by decide +kernel

/-- M18 -/
theorem test_loadRegs : (run 0xF165 fun s => config { Cfg.default with incrementMode := .x }
    (bytes 0x300 [0xAA#8, 0xBB#8, 0xCC#8] (s.setI 0x300#16))).map
      (fun t => (t.getV 0, t.getV 1, t.getV 2, t.i)) = some (0xAA#8, 0xBB#8, 0#8, 0x301#16) := by decide +kernel

/-! ## Display -/

/-- D11, on a few cells. -/
theorem test_clear : (run 0x00E0 (pixels [(0, 0), (31, 63), (5, 7)])).map
    (fun t => (t.disp, t.pc, t.displayOut)) = some (State.reset.disp, 0x202#16, none) := by decide +kernel

/-- D12 -/
theorem test_clear_push : (run 0x00E0 (config { Cfg.default with drawOnCall := true })).map
    (fun t => (t.displayPush, t.pushPending)) = some (true, false) := by decide +kernel

/-- D13: the push of phase (b) shows the buffer of before the clear, in row-major bits (R302: 64*1 + 2 = 66). -/
theorem test_tick_push_before_slot :
    (runWith { slot with timerTick := true } 0x00E0 (pixels [(1, 2)])).map
      (fun t => (t.disp, t.displayPush, t.displayFrame)) =
      some (State.reset.disp, true, some (BitVec.twoPow 2048 66)) := by decide +kernel

/-- D14: under `draw_on_call` a tick pushes nothing. -/
theorem test_tick_without_push :
    (runWith { slot with timerTick := true } 0x6000 (config { Cfg.default with drawOnCall := true })).map
      (fun t => (t.displayPush, t.displayFrame)) = some (false, none) := by decide +kernel

/-- D2: the sprite wraps on both axes. -/
theorem test_draw_wraps :
    (run 0xD012 fun s => bytes 0x300 [0xFF#8, 0x81#8] (regs [(0, 0x3C#8), (1, 0x1F#8)] (s.setI 0x300#16))).map
      (fun t => (t.disp, t.getV vf)) =
      some ((pixels [(0, 3), (0, 60), (31, 0), (31, 1), (31, 2), (31, 3), (31, 60), (31, 61), (31, 62), (31, 63)]
        State.reset).disp, 0#8) := by decide +kernel

/-- D3: a collision. -/
theorem test_draw_collision :
    (run 0xD001 fun s => bytes 0x300 [0xC0#8] (pixels [(0, 1)] (s.setI 0x300#16))).map
      (fun t => (t.disp, t.getV vf)) = some ((pixels [(0, 0)] State.reset).disp, 1#8) := by decide +kernel

/-- D16, its second draw: over the cells the first one turned on, the buffer is restored and VF is 1 (R226). -/
theorem test_draw_second_restores :
    (run 0xD012 fun s => bytes 0x300 [0x3C#8, 0x42#8] (regs [(0, 0x3E#8), (1, 0x1F#8)]
        (pixels [(31, 0), (31, 1), (31, 2), (31, 3), (0, 63), (0, 4)] (s.setI 0x300#16)))).map
      (fun t => (t.disp, t.getV vf)) = some (State.reset.disp, 1#8) := by decide +kernel

/-! ## Keys and timers -/

/-- K3 and K4: the events of the pass count, and the last one of a key. -/
theorem test_skipKeyDown :
    [[⟨10, true⟩], [⟨10, true⟩, ⟨10, false⟩]].map (fun l =>
      (runWith { slot with keyEvents := l } 0xE49E (regs [(4, 0x0A#8)])).map (·.pc)) =
      [some 0x204#16, some 0x202#16] := by decide +kernel

/-- K7 -/
theorem test_skipKeyDown_range : (run 0xE49E (regs [(4, 0x10#8)])).map faultView =
    some (⟨.keyRange, 0x200#16, 0xE49E#16, 0x10#16⟩, .halted, .fault, 0x202#16) := by decide +kernel

/-- K5 and K6 -/
theorem test_skipKeyUp :
    [run 0xE4A1 (regs [(4, 0x0A#8)]), run 0xE4A1 fun s => (regs [(4, 0x0A#8)] s).setKey 10 true].map
      (Option.map (·.pc)) = [some 0x204#16, some 0x202#16] := by decide +kernel

/-- K10: the instruction sees the decremented value. -/
theorem test_readDelay : (runWith { slot with timerTick := true } 0xF507 fun s => s.setDT 0x3C#8).map
    (fun t => (t.getV 5, t.dt, t.displayPush)) = some (0x3B#8, 0x3B#8, true) := by decide +kernel

/-- K11 -/
theorem test_writeDelay : (run 0xF515 (regs [(5, 0x20#8)])).map (fun t => (t.dt, t.st)) =
    some (0x20#8, 0#8) := by decide +kernel

/-- K12 -/
theorem test_writeSound : (run 0xF518 (regs [(5, 1#8)])).map (fun t => (t.dt, t.st, t.soundActive)) =
    some (0#8, 1#8, true) := by decide +kernel

/-- K14 -/
theorem test_waitKey : (run 0xF30A id).map (fun t => (t.runState, t.waitReg, t.pc, t.getV 3)) =
    some (.waiting, 3, 0x202#16, 0#8) := by decide +kernel

/-- K15 and K18, the waking pass: the first key-down wins, and the pass executes the next instruction. -/
theorem test_wake :
    (runWith { slot with keyEvents := [⟨5, false⟩, ⟨5, true⟩, ⟨6, true⟩] } 0x6001 id).map (·.runState) =
      some .running ∧
    (nextOf (step (event (.pass { slot with keyEvents := [⟨5, false⟩, ⟨5, true⟩, ⟨6, true⟩] })
      ((bytes 0x200 [0x60#8, 0x01#8] State.reset).enterWait 3)))).map
        (fun t => (t.getV 3, t.getV 0, t.pc, t.runState)) = some (5#8, 1#8, 0x202#16, .running) := by
  decide +kernel

/-! ## Passes and faults -/

/-- E4 -/
theorem test_unknown_halts : (run 0x5121 id).map (fun t => (faultView t, t.faultEvent)) =
    some ((⟨.unknownOpcode, 0x200#16, 0x5121#16, 0#16⟩, .halted, .fault, 0x202#16), true) := by decide +kernel

/-- E12: ASK answered SKIP. -/
theorem test_unknown_ask_skip : (run 0xFFFF fun s =>
    config { Cfg.default with unknownOpcodePolicy := .ask } (s.setPorts { idle with opChoice := 1#2 })).map faultView =
      some (⟨.unknownOpcode, 0x200#16, 0xFFFF#16, 0#16⟩, .running, .none, 0x202#16) := by decide +kernel

/-- E15 -/
theorem test_fetch_bounds : (nextOf (step (event (.pass slot) (State.reset.setPc 0xFFF#16)))).map faultView =
    some (⟨.memBoundsFetch, 0xFFF#16, 0#16, 0x1000#16⟩, .halted, .fault, 0xFFF#16) := by decide +kernel

/-- S2, first pass. -/
theorem test_waiting_counts :
    (nextOf (step (event (.pass { slot with timerTick := true })
      (((State.reset.setDT 5#8).setST 2#8).enterWait 3)))).map
        (fun t => (t.dt, t.st, t.runState, t.pc, t.displayPush)) = some (4#8, 1#8, .waiting, 0x200#16, true) := by
  decide +kernel

/-- S5 -/
theorem test_quit :
    (nextOf (step (event (.pass { slot with quit := true, timerTick := true, keyEvents := [⟨4, true⟩] })
      ((State.reset.setDT 5#8).enterWait 3)))).map
        (fun t => (t.getV 3, t.dt, t.runState, t.haltReason)) = some (4#8, 5#8, .halted, .quit) := by decide +kernel

/-- S6 -/
theorem test_halted :
    (nextOf (step (event (.pass { slot with timerTick := true, keyEvents := [⟨1, true⟩] })
      ((State.reset.setDT 5#8).halt .quit)))).map
        (fun t => (t.getKey 1, t.dt, t.pc, t.displayPush)) = some (false, 5#8, 0x200#16, false) := by decide +kernel

/-! ## Reset and load -/

/-- R4: an image of two bytes. -/
theorem test_loadImage :
    (nextOf (step (event (.loadImage (.image [0x00#8, 0xE0#8])) (State.reset.assertReset Cfg.default)))).map
      (fun t => ([0x200, 0x201, 0x202].map t.mem.read, t.rst)) =
      some ([0x00#8, 0xE0#8, 0x00#8], .asserted .ok) := by decide +kernel

/-- R3: the release after a failed load. -/
theorem test_failed_load :
    (nextOf (step (event .releaseReset ((State.reset.assertReset Cfg.default).loadImage .unreadable)))).map
      (fun t => (t.runState, t.haltReason, t.rst, t.mem)) = some (.halted, .loadError, .released, []) := by
  decide +kernel

/-- R2 and R3: 3584 bytes fit, 3585 do not. -/
theorem test_image_size :
    ((State.reset.assertReset Cfg.default).loadImage (.image (List.replicate 3584 0#8))).rst = .asserted .ok ∧
      ((State.reset.assertReset Cfg.default).loadImage (.image (List.replicate 3585 0#8))).rst = .asserted .failed := by
  decide +kernel

/-- R6 and R44: CONFIG 0x10A is bitwise_quirk 0, shift_quirk 1, NONE, draw_on_call 0, HALT, ASK. -/
theorem test_assertReset :
    (nextOf (step (event (.assertReset 0x10A#9) (State.reset.halt .fault)))).map
      (fun t => (t.cfg, t.runState, t.haltReason, t.rst)) =
      some (⟨false, true, .none, false, .halt, .ask⟩, .running, .none, .asserted .notCalled) := by decide +kernel

/-- R44: a reserved value is refused. -/
theorem test_assertReset_reserved :
    (match step (event (.assertReset 0x00C#9) State.reset) with
      | .refused r => some r
      | _ => none) = some .reservedConfig := by decide +kernel

/-- R327: no LoadImage while rst is released. -/
theorem test_loadImage_released :
    (match step (event (.loadImage .unreadable) State.reset) with
      | .refused r => some r
      | _ => none) = some .loadUnavailable := by decide +kernel

/-- R33: glyph F of the default font (R7 of the vectors). -/
theorem test_font : (List.range 5).map (fun k => State.reset.mem.read (0x04B + k)) =
    [0xF0#8, 0x80#8, 0xF0#8, 0x80#8, 0x80#8] := by decide +kernel

/-- R303: the status port of a halted block. -/
theorem test_status : (run 0x5121 id).map (fun t => [1, 3, 4, 5, 6, 7].map t.statusRead) =
    some [2, 2, 1, 0x200, 0x5121, 0] := by decide +kernel

/-- R44's bits, from its table: 1 0101 0011 is both quirks, X+1, draw_on_call, ASK and ASK; 0 1010 1000 is NONE, SKIP
and SKIP. -/
theorem test_config_bits : [0x153#9, 0x0A8#9].map cfgOfBits =
    [some ⟨true, true, .xPlus1, true, .ask, .ask⟩, some ⟨false, false, .none, false, .skip, .skip⟩] := by decide

/-! ## Witnesses: for each obligation with hypotheses, a state and operands that meet them -/

/-- A state in which a pass with the inputs `p` is next, with the word 0x8124 (add V1, V2) at `pc`. -/
def passState (p : PassInputs) (pc : Word) : State :=
  event (.pass p) (bytes pc.toNat [0x81#8, 0x24#8] (State.reset.setPc pc))

theorem witness_DecodeReadsBackEncode : WellFormed (.legacyCall 0x0E1#12) = true ∧ WellFormed .ret = true := by decide

theorem witness_EncodeWritesBackDecode : decodeWord 0x8F15#16 = .ok (.sub 15 1) := rfl

theorem witness_FetchIsBigEndian : (State.reset.setPc 0xFFE#16).pc.toNat + 1 ≤ 0xFFF := by decide

/-- At the last fetchable address, with a wait ended in phase (a) and a timer tick as well. -/
theorem witness_StepRunsDecodedInstruction :
    let p : PassInputs := { slot with keyEvents := [⟨3, true⟩], timerTick := true }
    let s := (passState p 0xFFE#16).enterWait 5
    PassWith s p ∧ (s.passStart p).keyPhase.runState = .running ∧ p.quit = false ∧ p.execTick = true ∧
      s.pc.toNat + 1 ≤ 0xFFF ∧
      decodeBytes [s.mem.read s.pc.toNat, s.mem.read (s.pc.toNat + 1)] = .ok (.add 1 2, []) :=
  ⟨⟨rfl, rfl⟩, rfl, rfl, rfl, by decide +kernel, rfl⟩

theorem witness_StepRunsDecodedInstruction_running : (passState slot 0x200#16).runState = .running := rfl

theorem witness_PlacedWordRunsNext : decodeTableWord 16 0xF365 = some (.loadRegs 3) := by decide +kernel

/-- A state with the unknown word 0x5121 at pc and the policy `q`. -/
def unknownState (p : PassInputs) (q : Policy) : State :=
  event (.pass p) (config { Cfg.default with unknownOpcodePolicy := q } (bytes 0x200 [0x51#8, 0x21#8] State.reset))

theorem witness_UnknownWordRaisesFault (q : Policy) :
    PassWith (unknownState slot q) slot ∧ ((unknownState slot q).passStart slot).keyPhase.runState = .running ∧
      slot.quit = false ∧ slot.execTick = true ∧ (unknownState slot q).fetchWord = some 0x5121#16 ∧
      decodeWord 0x5121#16 = .error (.unknownOpcode 0x5121#16) ∧ (unknownState slot q).cfg.unknownOpcodePolicy = q :=
  ⟨⟨rfl, rfl⟩, rfl, rfl, rfl, by cases q <;> decide +kernel, rfl, rfl⟩

/-- The answers of an ASK: none and HALT are no SKIP, 1 is. -/
theorem witness_UnknownWordRaisesFault_answers :
    slot.opChoice ≠ 1#2 ∧ ({ slot with opChoice := 2#2 } : PassInputs).opChoice ≠ 1#2 ∧
      ({ slot with opChoice := 1#2 } : PassInputs).opChoice = 1#2 := by decide

theorem witness_FetchBeyondMemoryHalts :
    let s := event (.pass slot) (State.reset.setPc 0xFFF#16)
    PassWith s slot ∧ (s.passStart slot).keyPhase.runState = .running ∧ slot.quit = false ∧ slot.execTick = true ∧
      0xFFF < s.pc.toNat + 1 := ⟨⟨rfl, rfl⟩, rfl, rfl, rfl, by decide⟩

theorem witness_HaltedPassChangesNothing :
    let s := (passState slot 0x200#16).halt .fault
    PassWith s slot ∧ s.runState = .halted := ⟨⟨rfl, rfl⟩, rfl⟩

theorem witness_QuitHaltsBeforeTimers :
    let p : PassInputs := { slot with quit := true, timerTick := true, keyEvents := [⟨4, true⟩] }
    let s := (passState p 0x200#16).enterWait 3
    PassWith s p ∧ s.runState ≠ .halted ∧ p.quit = true := ⟨⟨rfl, rfl⟩, by decide, rfl⟩

theorem witness_FirstKeyDownEndsWait :
    let p : PassInputs := { slot with keyEvents := [⟨5, false⟩, ⟨15, true⟩, ⟨6, true⟩] }
    (State.reset.enterWait 15).runState = .waiting ∧
      p.keyEvents = [⟨5, false⟩] ++ { key := 15, down := true } :: [⟨6, true⟩] ∧
      ∀ e ∈ ([⟨5, false⟩] : List KeyEvent), e.down = false := ⟨rfl, rfl, by decide⟩

theorem witness_FirstKeyDownEndsWait_none :
    (State.reset.enterWait 3).runState = .waiting ∧
      ∀ e ∈ ({ slot with keyEvents := [⟨5, false⟩] } : PassInputs).keyEvents, e.down = false := ⟨rfl, by decide⟩

theorem witness_WaitingPassRunsNoInstruction :
    let p : PassInputs := { slot with keyEvents := [⟨5, false⟩], timerTick := true }
    let s := (passState p 0x200#16).enterWait 3
    PassWith s p ∧ (s.passStart p).keyPhase.runState = .waiting ∧ p.quit = false ∧ s.runState = .waiting ∧
      ({ s with pending := .pass { p with execTick := false } :: s.pending.tail } : State) =
        event (.pass { p with execTick := false }) s := ⟨⟨rfl, rfl⟩, rfl, rfl, rfl, rfl⟩

theorem witness_TickCountsTimersDown :
    ({ slot with timerTick := true } : PassInputs).timerTick = true ∧ slot.timerTick = false := ⟨rfl, rfl⟩

theorem witness_TickPushesDisplay_frame :
    (State.reset.pushDisplay).displayOut = some State.reset.disp ∧ State.reset.displayOut = none := ⟨rfl, rfl⟩

theorem witness_TickPushesDisplay :
    let p : PassInputs := { idle with timerTick := true }
    PassWith (passState p 0x200#16) p ∧ (passState p 0x200#16).runState ≠ .halted ∧ p.quit = false ∧
      p.execTick = false ∧ p.timerTick = true ∧ (passState p 0x200#16).cfg.drawOnCall = false :=
  ⟨⟨rfl, rfl⟩, by decide, rfl, rfl, rfl, rfl⟩

/-- I = 0xFFF: rows 0 and 1 fit, row 2 does not. -/
theorem witness_DrawingPushesOnCall :
    let s := State.reset.setI 0xFFF#16
    s.pushPending = false ∧ (1 : Fin 16).val ≠ 0 ∧ s.dataAddr ((1 : Fin 16).val - 1) ≤ 0xFFF ∧ (2 : Fin 16).val ≠ 0 ∧
      0xFFF < s.dataAddr ((2 : Fin 16).val - 1) := by decide

theorem witness_LegacyCallDoesNothing : (0x0E1#12).toNat ≠ 0x0E0 ∧ (0x0E1#12).toNat ≠ 0x0EE := by decide

/-- An empty stack, and one with a single place left. -/
theorem witness_CallPushesReturnAddress :
    State.reset.callStack.sp < State.reset.callStack.depth ∧
      let s := State.reset.setCallStack { State.reset.callStack with sp := 15 }
      s.callStack.sp < s.callStack.depth := by decide

theorem witness_CallPushesReturnAddress_full :
    let s := State.reset.setCallStack { State.reset.callStack with sp := 16 }
    s.callStack.sp = s.callStack.depth := by decide

theorem witness_ReturnPopsAddress :
    let s := State.reset.setCallStack { entries := [0x206#16], sp := 1 }
    s.callStack.sp = 0 + 1 ∧ s.callStack.entries[0]? = some 0x206#16 := ⟨rfl, rfl⟩

theorem witness_ReturnOnEmptyStackFaults (q : Policy) :
    let s := config { Cfg.default with stackUnderflowPolicy := q } State.reset
    s.callStack.sp = 0 ∧ s.cfg.stackUnderflowPolicy = q ∧ s.ports.opChoice ≠ 1#2 ∧
      (s.setPorts { slot with opChoice := 1#2 }).ports.opChoice = 1#2 := ⟨rfl, rfl, by cases q <;> decide, rfl⟩

theorem witness_ReturnResumesAfterCall : State.reset.callStack.sp < State.reset.callStack.depth := by decide

theorem witness_SkipsOnRegisters : 0 < 1 ∧ 1 < 16 ∧ 0 < 15 ∧ 15 < 16 := by decide

theorem witness_ShiftsWriteResultAndLostBit :
    let s := regs [(0, 3#8), (1, 0xF0#8)] State.reset
    (3 = if s.cfg.shiftQuirk = true then (s.getV 1).toNat else (s.getV 0).toNat) ∧
      let t := config { Cfg.default with shiftQuirk := true } s
      (0xF0 = if t.cfg.shiftQuirk = true then (t.getV 1).toNat else (t.getV 0).toNat) := by decide +kernel

/-- The last address of each width that fits: three, sixteen and one bytes. -/
theorem witness_memory_in_range :
    (State.reset.setI 0xFFD#16).dataAddr 2 ≤ 0xFFF ∧ (State.reset.setI 0xFF0#16).dataAddr (15 : Reg).val ≤ 0xFFF ∧
      (State.reset.setI 0xFFF#16).dataAddr (0 : Reg).val ≤ 0xFFF := by decide

/-- `BcdStoresDigits`, `StoreRegsStoresTheBlock`, `LoadRegsLoadsTheBlock` and `StoreThenLoadRestoresRegisters`. -/
theorem witness_BcdStoresDigits : (State.reset.setI 0xFFD#16).dataAddr 2 ≤ 0xFFF := witness_memory_in_range.1

theorem witness_StoreRegsStoresTheBlock : (State.reset.setI 0xFF0#16).dataAddr (15 : Reg).val ≤ 0xFFF :=
  witness_memory_in_range.2.1

theorem witness_LoadRegsLoadsTheBlock : (State.reset.setI 0xFFF#16).dataAddr (0 : Reg).val ≤ 0xFFF :=
  witness_memory_in_range.2.2

theorem witness_StoreThenLoadRestoresRegisters : (State.reset.setI 0xFF0#16).dataAddr (15 : Reg).val ≤ 0xFFF :=
  witness_memory_in_range.2.1

/-- The first address out of range for each clause, and the highest value of I. -/
theorem witness_DataAccessBeyondMemoryHalts :
    0xFFF < (State.reset.setI 0xFFE#16).dataAddr 2 ∧ 0xFFF < (State.reset.setI 0xFF1#16).dataAddr (15 : Reg).val ∧
      0xFFF < (State.reset.setI 0x1000#16).dataAddr (0 : Reg).val ∧ (2 : Fin 16).val ≠ 0 ∧
      0xFFF < (State.reset.setI 0xFFF#16).dataAddr ((2 : Fin 16).val - 1) ∧
      0xFFF < (State.reset.setI 0xFFFF#16).dataAddr 2 := by decide

theorem witness_DrawFlipsCoveredCells :
    ((0 : Fin 16).val = 0 ∨ (State.reset.setI 0xFFFF#16).dataAddr ((0 : Fin 16).val - 1) ≤ 0xFFF) ∧
      ((15 : Fin 16).val = 0 ∨ (State.reset.setI 0xFF1#16).dataAddr ((15 : Fin 16).val - 1) ≤ 0xFFF) := by decide

/-- Glyph 0 of the font drawn on an empty buffer covers the cell (0, 0), which is off, so no covered cell is on; on a
buffer with that cell on, one is. -/
theorem witness_DrawFlipsCoveredCells_collision :
    SpriteCovers State.reset 0 0 5 0 0 ∧ State.reset.disp.pixel 0 0 = false ∧
      SpriteCovers (pixels [(0, 0)] State.reset) 0 0 5 0 0 ∧ (pixels [(0, 0)] State.reset).disp.pixel 0 0 = true ∧
      ¬ ∃ row col, SpriteCovers State.reset 0 0 5 row col ∧ State.reset.disp.pixel row col = true := by
  refine ⟨⟨0, 0, by decide, by decide, by decide +kernel, by decide +kernel, by decide +kernel⟩, by decide +kernel,
    ⟨0, 0, by decide, by decide, by decide +kernel, by decide +kernel, by decide +kernel⟩, by decide +kernel, ?_⟩
  rintro ⟨row, col, -, h⟩
  simp [Display.pixel, State.reset] at h

theorem witness_DrawingTwiceRestoresDisplay :
    (0 : Reg) ≠ vf ∧ (1 : Reg) ≠ vf ∧ ((5 : Fin 16).val = 0 ∨ State.reset.dataAddr ((5 : Fin 16).val - 1) ≤ 0xFFF) := by
  decide

/-- Two draws of a one-row sprite, which has a 1-bit. -/
theorem witness_SecondDrawAlwaysCollides :
    let s := bytes 0x300 [0x80#8] (State.reset.setI 0x300#16)
    (0 : Reg) ≠ vf ∧ (1 : Reg) ≠ vf ∧ ((1 : Fin 16).val = 0 ∨ s.dataAddr ((1 : Fin 16).val - 1) ≤ 0xFFF) ∧
      (∃ t u, exec (.draw 0 1 1) s = .next t ∧ exec (.draw 0 1 1) t = .next u) ∧
      ∃ r c : Nat, r < (1 : Fin 16).val ∧ c < 8 ∧ (s.mem.read (s.dataAddr r)).getLsbD c = true :=
  ⟨by decide, by decide, by decide, ⟨_, _, rfl, rfl⟩, 0, 7, by decide, by decide, by decide +kernel⟩

theorem witness_SkipsOnKeyState :
    ((regs [(4, 0x0F#8)] State.reset).getV 4).toNat = (15 : Key).val ∧ (State.reset.getV 4).toNat = (0 : Key).val := by
  decide +kernel

theorem witness_KeyNumberOutOfRangeHalts :
    0xF < ((regs [(4, 0x10#8)] State.reset).getV 4).toNat ∧ 0xF < ((regs [(4, 0xFF#8)] State.reset).getV 4).toNat := by
  decide +kernel

/-- One instruction for each part of the state that an instruction can change runs to a next state. -/
theorem witness_OnlyListedInstructionsChangeState :
    (∃ t, exec (.add 0 1) State.reset = .next t) ∧ (∃ t, exec (.addI 0) State.reset = .next t) ∧
      (∃ t, exec (.call 0x300#12) State.reset = .next t) ∧ (∃ t, exec (.storeRegs 2) State.reset = .next t) ∧
      (∃ t, exec (.draw 0 1 5) State.reset = .next t) ∧ Instr.mnemonic (.draw 0 1 5) ∉ ["bcd", "store-regs"] :=
  ⟨⟨_, rfl⟩, ⟨_, rfl⟩, ⟨_, rfl⟩, ⟨_, rfl⟩, ⟨_, rfl⟩, by decide⟩

theorem witness_OtherInstructionsKeepPc :
    (∃ t, exec (.bcd 3) State.reset = .next t) ∧ Instr.mnemonic (.bcd 3) ∉ ["jump", "call", "return", "jump-plus",
      "skip-eq-imm", "skip-neq-imm", "skip-eq-reg", "skip-neq-reg", "skip-key-down", "skip-key-up"] :=
  ⟨⟨_, rfl⟩, by decide⟩

theorem witness_ConfigChangesOnlyAtReset :
    (∃ t, step (event (.assertReset 0x10A#9) State.reset) = .next t) ∧
      ∃ t, step (passState slot 0x200#16) = .next t := ⟨⟨_, rfl⟩, ⟨_, rfl⟩⟩

/-- A pass in each run state, and each of the other events, answers a next state. -/
theorem witness_RunStateMachine :
    (PassWith (passState slot 0x200#16) slot ∧ (passState slot 0x200#16).runState = .running ∧
      ∃ t, step (passState slot 0x200#16) = .next t) ∧
    (PassWith ((passState slot 0x200#16).enterWait 3) slot ∧ ∃ t, step ((passState slot 0x200#16).enterWait 3) = .next t) ∧
    (PassWith ((passState slot 0x200#16).halt .quit) slot ∧ ∃ t, step ((passState slot 0x200#16).halt .quit) = .next t) ∧
    (∃ t, step (event (.assertReset 0x000#9) State.reset) = .next t) ∧
    (∃ t, step (event (.loadImage .unreadable) (State.reset.assertReset Cfg.default)) = .next t) ∧
    ∃ t, step (event .releaseReset (State.reset.setRst (.asserted .failed))) = .next t :=
  ⟨⟨⟨rfl, rfl⟩, rfl, _, rfl⟩, ⟨⟨rfl, rfl⟩, _, rfl⟩, ⟨⟨rfl, rfl⟩, _, rfl⟩, ⟨_, rfl⟩, ⟨_, rfl⟩, ⟨_, rfl⟩⟩

/-- A state with the invariant that is not the reset state: one address on the stack, a fault recorded, halted. -/
def invState : State :=
  event (.pass slot)
    (((State.reset.setCallStack { entries := [0x202#16, 0#16], sp := 1 }).recordFault (unknownFault 0x200#16 0x5121#16)).halt
      .fault)

theorem witness_StepKeepsInvariant : invState.Inv ∧ ∃ t, step invState = .next t := by
  refine ⟨⟨rfl, by decide, by decide, ?_, ?_, ?_, fun _ => ?_, ⟨rfl, rfl⟩, fun _ => ?_, rfl, fun h => absurd rfl h⟩, _, rfl⟩
  · simp [invState, event, pcLimit, State.halt, State.recordFault, State.setCallStack]
  · simp [invState, event, pcLimit, State.halt, State.recordFault, State.setCallStack, State.reset]
  all_goals simp [invState, event, State.halt, State.recordFault, unknownFault]

theorem witness_StepsStopOnlyAtRefusedHostActs : invState.Inv := witness_StepKeepsInvariant.1

theorem witness_AssertingResetRestoresState :
    let s := event (.assertReset 0x10A#9) (State.reset.halt .fault)
    s.nextEvent = .assertReset 0x10A#9 ∧ cfgOfBits 0x10A#9 = some ⟨false, true, .none, false, .halt, .ask⟩ :=
  ⟨rfl, by decide +kernel⟩

theorem witness_LoadImageCopiesBytes :
    let l : List Byte := List.replicate 3584 0xAA#8
    let s := event (.loadImage (.image l)) (State.reset.assertReset Cfg.default)
    s.nextEvent = .loadImage (.image l) ∧ s.rst = .asserted .notCalled ∧ l.length ≤ 3584 :=
  ⟨rfl, rfl, Nat.le_of_eq List.length_replicate⟩

theorem witness_FailedLoadHaltsAtRelease :
    let l : List Byte := List.replicate 3585 0xAA#8
    let s := event (.loadImage (.image l)) (State.reset.assertReset Cfg.default)
    (s.nextEvent = .loadImage (.image l) ∧ s.rst = .asserted .notCalled ∧ 3584 < l.length) ∧
    (event .releaseReset (State.reset.setRst (.asserted .failed))).nextEvent = .releaseReset ∧
    (event .releaseReset (State.reset.setRst (.asserted .failed))).rst = .asserted .failed ∧
    (event .releaseReset (State.reset.setRst (.asserted .ok))).rst = .asserted .ok ∧
    (event .releaseReset (State.reset.setRst (.asserted .notCalled))).rst = .asserted .notCalled :=
  ⟨⟨rfl, rfl, Nat.lt_of_lt_of_eq (by decide : 3584 < 3585) List.length_replicate.symm⟩, rfl, rfl, rfl, rfl⟩

theorem witness_AssertingResetRestoresState_noPass :
    let s := event (.pass slot) (State.reset.setRst (.asserted .ok))
    s.nextEvent = .pass slot ∧ s.rst = .asserted .ok := ⟨rfl, rfl⟩

/-- CONFIG values that are configurations, and one reserved value for each field that has one. -/
theorem witness_StatusPortFitsWidths :
    (cfgOfBits 0x000#9).isSome = true ∧ (cfgOfBits 0x153#9).isSome = true ∧ cfgOfBits 0x00C#9 = none ∧
      cfgOfBits 0x060#9 = none ∧ cfgOfBits 0x180#9 = none := by decide +kernel

end Sys2Proof.Tests
end

section
/-! PROOFS. The decoder reads back what the encoder writes, and answers one error only (30_encoding.md R92 to R96). -/

namespace Sys2Proof

/-- The primary opcode and the operand of a word of format NNN. -/
theorem fields_encodeNNN {op : Nat} (h : op < 16) (nnn : Addr12) :
    field (encodeNNN op nnn) 15 12 = op ∧ fieldNNN (encodeNNN op nnn) = nnn := by
  have hw := toNat_encodeNNN h nnn
  have := nnn.isLt
  refine ⟨by rw [field_op]; omega, BitVec.eq_of_toNat_eq ?_⟩
  rw [fieldNNN_toNat]; omega

/-- The primary opcode, the low byte and the operands of a word of format XNN. -/
theorem fields_encodeXNN {op : Nat} (h : op < 16) (x : Reg) (nn : Byte) :
    field (encodeXNN op x nn) 15 12 = op ∧ field (encodeXNN op x nn) 7 0 = nn.toNat ∧
    fieldX (encodeXNN op x nn) = x ∧ fieldNN (encodeXNN op x nn) = nn := by
  have hw := toNat_encodeXNN h x nn
  have := nn.isLt
  have := x.isLt
  refine ⟨by rw [field_op]; omega, by rw [field_low8]; omega, Fin.ext ?_, BitVec.eq_of_toNat_eq ?_⟩
  · rw [fieldX_val]; omega
  · rw [fieldNN_toNat]; omega

/-- The primary opcode, the low nibble and the operands of a word of format XYN. -/
theorem fields_encodeXYN {op : Nat} (h : op < 16) (x y : Reg) (n : Fin 16) :
    field (encodeXYN op x y n) 15 12 = op ∧ field (encodeXYN op x y n) 3 0 = n.val ∧
    fieldX (encodeXYN op x y n) = x ∧ fieldY (encodeXYN op x y n) = y ∧ fieldN (encodeXYN op x y n) = n := by
  have hw := toNat_encodeXYN h x y n
  have := x.isLt
  have := y.isLt
  have := n.isLt
  refine ⟨by rw [field_op]; omega, by rw [field_low4]; omega, Fin.ext ?_, Fin.ext ?_, Fin.ext ?_⟩
  · rw [fieldX_val]; omega
  · rw [fieldY_val]; omega
  · rw [fieldN_val]; omega

/-- The decoder reads back every well-formed instruction (R94, R95): a legacy-call is told from `clear` and `return` by
its operand, every other instruction by its format's fixed fields. -/
theorem decodeWord_encode {i : Instr} (h : WellFormed i = true) : decodeWord (encode i) = .ok i := by
  cases i with
  | legacyCall nnn =>
    obtain ⟨hop, hnnn⟩ := fields_encodeNNN (op := 0x0) (by decide) nnn
    obtain ⟨h1, h2⟩ : nnn ≠ 0x0E0#12 ∧ nnn ≠ 0x0EE#12 := by simpa [WellFormed] using h
    have hclear : encodeNNN 0x0 nnn ≠ 0x00E0#16 := fun he => h1 (hnnn.symm.trans (congrArg fieldNNN he))
    have hret : encodeNNN 0x0 nnn ≠ 0x00EE#16 := fun he => h2 (hnnn.symm.trans (congrArg fieldNNN he))
    simp [decodeWord, encode, hop, hnnn, hclear, hret]
  | clear => rfl
  | ret => rfl
  | _ => simp [decodeWord, encode, fields_encodeNNN, fields_encodeXNN, fields_encodeXYN]

/-- A word that decodes to no instruction is an unknown word, reported by itself (R96). -/
theorem eq_unknownOpcode_of_decodeWord {w : Word} {e : DecodeError} (h : decodeWord w = .error e) :
    e = .unknownOpcode w := by
  simp only [decodeWord] at h
  repeat' split at h
  all_goals cases h
  all_goals rfl

end Sys2Proof
end

section
/-! PROOFS. The invariant of the machine, update by update and instruction by instruction, and that a step from a state
with the invariant goes on to one, but for the host acts that are refused (O53, O54, O55). -/

namespace Sys2Proof.Machine

/-! ## The updates that keep the invariant -/

section Updates

variable {s : State}

theorem State.Inv.setV (hs : s.Inv) (x : Reg) (b : Byte) : (s.setV x b).Inv := { hs with }

theorem State.Inv.setRegs (hs : s.Inv) (v : Vector Byte 16) : (s.setRegs v).Inv := { hs with }

theorem State.Inv.setI (hs : s.Inv) (a : Word) : (s.setI a).Inv := { hs with }

theorem State.Inv.setDT (hs : s.Inv) (b : Byte) : (s.setDT b).Inv := { hs with }

theorem State.Inv.setST (hs : s.Inv) (b : Byte) : (s.setST b).Inv := { hs with }

theorem State.Inv.setDisp (hs : s.Inv) (d : Display) : (s.setDisp d).Inv := { hs with }

theorem State.Inv.setKey (hs : s.Inv) (k : Key) (d : Bool) : (s.setKey k d).Inv := { hs with }

theorem State.Inv.setPorts (hs : s.Inv) (p : PassInputs) : (s.setPorts p).Inv := { hs with }

theorem State.Inv.pushDisplay (hs : s.Inv) : s.pushDisplay.Inv := { hs with }

theorem State.Inv.takeEvent (hs : s.Inv) : s.takeEvent.Inv := { hs with }

theorem State.Inv.clearOutputs (hs : s.Inv) : s.clearOutputs.Inv :=
  { hs with event_fault := (nomatch ·), push_clear := rfl }

theorem State.Inv.setPc (hs : s.Inv) {a : Word} (ha : a.toNat ≤ pcLimit) : (s.setPc a).Inv := { hs with pc_le := ha }

theorem State.Inv.setMem (hs : s.Inv) {m : Memory} (hm : m.wf = true) : (s.setMem m).Inv := { hs with mem_wf := hm }

theorem State.Inv.setMem_writeBytes (hs : s.Inv) {a : Nat} {bs : List Byte} (h : a + bs.length ≤ memSize) :
    (s.setMem (s.mem.writeBytes a bs)).Inv := hs.setMem (Memory.wf_writeBytes hs.mem_wf h)

/-- Between two values of the asserted line nothing else of the invariant is at stake (R320). -/
theorem State.Inv.setRst_asserted (hs : s.Inv) (l : LoadStatus) (h : s.rst ≠ .released) :
    (s.setRst (.asserted l)).Inv :=
  { hs with rst_running := fun _ => hs.rst_running h }

theorem State.Inv.setRst_released (hs : s.Inv) : (s.setRst .released).Inv :=
  { hs with rst_running := fun h => absurd rfl h }

/-- A halt for a reason, without a fault, of a block whose `rst` is released (R43). -/
theorem State.Inv.halt (hs : s.Inv) {r : HaltReason} (hn : r ≠ .none) (hf : r ≠ .fault) (hr : s.rst = .released) :
    (s.halt r).Inv :=
  { hs with
    halt_iff := iff_of_false hn fun h => h rfl
    halt_fault := fun h => absurd h hf
    rst_running := fun h => absurd hr h }

theorem State.Inv.enterWait (hs : s.Inv) (x : Reg) (hr : s.rst = .released) (hh : s.runState ≠ .halted) :
    (s.enterWait x).Inv :=
  { hs with
    halt_iff := iff_of_true (hs.halt_iff.mpr hh) fun h => nomatch h
    rst_running := fun h => absurd hr h }

theorem State.Inv.wake (hs : s.Inv) (hh : s.runState ≠ .halted) : s.wake.Inv :=
  { hs with
    halt_iff := iff_of_true (hs.halt_iff.mpr hh) fun h => nomatch h
    rst_running := fun _ => rfl }

/-- A sound record of a fault keeps the invariant, halting or going on (R262 to R265). -/
theorem State.Inv.raiseFault (hs : s.Inv) (hr : s.rst = .released) {f : FaultRecord} (hf : f.Sound)
    (hc : f.cause ≠ .none) : (s.raiseFault f).Inv := by
  have hrec : (s.recordFault f).Inv :=
    { hs with halt_fault := fun _ => hc, fault_sound := hf, event_fault := fun _ => hc }
  rcases s.raiseFault_cases f with ⟨-, h⟩ | ⟨-, h⟩ <;> rw [h]
  · exact { hrec with
      halt_iff := iff_of_false (fun h => nomatch h) fun h => h rfl
      halt_fault := fun _ => hc
      rst_running := fun h => absurd hr h }
  · exact hrec

/-! ## The compound updates -/

theorem State.Inv.skipIf (hs : s.Inv) (hpc : s.pc.toNat ≤ 0x1000) (b : Bool) : (s.skipIf b).Inv := by
  rw [State.skipIf_eq]
  refine hs.setPc ?_
  cases b
  · exact hs.pc_le
  · simp only [if_true, BitVec.toNat_add, BitVec.toNat_ofNat, pcLimit]; omega

theorem State.Inv.incI (hs : s.Inv) (x : Reg) : (s.incI x).Inv := by
  rw [State.incI_eq]; exact hs.setI _

theorem State.Inv.commit (hs : s.Inv) (x : Reg) (r f : Byte) : (s.commit x r f).Inv := (hs.setV x r).setV vf f

theorem State.Inv.commitUnlessVF (hs : s.Inv) (x : Reg) (d f : Byte) : (s.commitUnlessVF x d f).Inv := by
  rw [State.commitUnlessVF_eq]; exact hs.commit x d f

theorem State.Inv.commitBitwise (hs : s.Inv) (x : Reg) (r : Byte) : (s.commitBitwise x r).Inv := by
  rw [State.commitBitwise]; split
  · exact hs.commit x r 0#8
  · exact hs.setV x r

theorem State.Inv.finishPush (hs : s.Inv) : s.finishPush.Inv := by
  rw [State.finishPush_eq, hs.push_clear]; exact hs

/-- A push that was requested is made at the end of the pass, so that no request is pending after it (R225, R287). -/
theorem State.Inv.finishPush_requestPush (hs : s.Inv) : s.requestPush.finishPush.Inv := by
  rw [State.requestPush_eq, hs.push_clear]
  cases s.cfg.drawOnCall
  · exact { hs with push_clear := rfl }
  · exact { hs.pushDisplay with push_clear := rfl }

/-- A return address that is a possible pc, pushed where there is room (R125). -/
theorem State.Inv.setCallStack_push (hs : s.Inv) (h : s.callStack.sp < s.callStack.depth) {a : Word}
    (ha : a.toNat ≤ pcLimit) : (s.setCallStack (s.callStack.push a)).Inv :=
  { hs with
    depth_pos := by simpa using hs.depth_pos
    sp_le := Nat.le_trans h (Nat.le_of_eq (CallStack.push_depth _ _).symm)
    entries_le := fun b hb => by
      rcases List.mem_or_eq_of_mem_set hb with hb | rfl
      · exact hs.entries_le b hb
      · exact ha }

theorem State.Inv.setCallStack_drop (hs : s.Inv) : (s.setCallStack s.callStack.drop).Inv :=
  { hs with sp_le := Nat.le_trans (Nat.sub_le _ _) hs.sp_le }

theorem State.Inv.keyEvent (hs : s.Inv) (e : KeyEvent) : (s.keyEvent e).Inv := by
  rcases s.keyEvent_cases e with ⟨-, h⟩ | ⟨-, hw, h⟩ <;> rw [h]
  · exact hs.setKey _ _
  · exact ((hs.setKey _ _).setV _ _).wake (by simp [hw])

theorem State.Inv.keyPhase (hs : s.Inv) : s.keyPhase.Inv :=
  State.foldl_keyEvent_induction (fun _ e ht => ht.keyEvent e) _ s hs

theorem State.Inv.timerPhase (hs : s.Inv) : s.timerPhase.Inv := by
  have hc : s.countTimers.Inv := (hs.setDT _).setST _
  rcases s.timerPhase_cases with ⟨-, h⟩ | ⟨-, -, h⟩ | ⟨-, -, h⟩ <;> rw [h]
  · exact hs
  · exact hc
  · exact hc.pushDisplay

end Updates

/-! ## The instructions -/

/-- The outcome is a next state, and its push made, that state has the invariant. -/
def NextInv (o : Host.Outcome State Fault Refusal) : Prop := ∃ t, o = .next t ∧ t.finishPush.Inv

theorem State.Inv.nextInv {s : State} (hs : s.Inv) : NextInv (.next s) := ⟨s, rfl, hs.finishPush⟩

theorem State.Inv.nextInv_requestPush {s : State} (hs : s.Inv) : NextInv (.next s.requestPush) :=
  ⟨_, rfl, hs.finishPush_requestPush⟩

/-- What phase (d) knows of the state in which the rule of an instruction runs: it has the invariant, `rst` is released,
the block is not halted, and `pc` is A + 2 for an A that could be fetched from (R101, R102). -/
structure State.ExecInv (s : State) : Prop where
  inv        : s.Inv
  released   : s.rst = .released
  not_halted : s.runState ≠ .halted
  pc_le      : s.pc.toNat ≤ 0x1000

theorem addrOf_le_pcLimit (nnn : Addr12) : (addrOf nnn).toNat ≤ pcLimit := by
  have := nnn.isLt
  simp only [addrOf, BitVec.toNat_setWidth, pcLimit]; omega

section Instructions

variable {s : State} (hs : s.ExecInv)
include hs

theorem State.ExecInv.nextInv_raiseIn {i : Instr} {c : FaultCause} {a : Word} (hc : c ≠ .none)
    (hf : FaultRecord.Sound { cause := c, pc := s.instrAddr, opcode := encode i, addr := a }) :
    NextInv (.next (s.raiseIn i c a)) :=
  (hs.inv.raiseFault hs.released hf hc).nextInv

/-- An access to memory by one of the four instructions that make one: its effect, or MEM_BOUNDS_DATA at the first
address out of range (R67, R261). -/
theorem State.ExecInv.nextInv_withRange {i : Instr} {k : Nat} {e : State}
    (hi : (∃ x y n, i = .draw x y n) ∨ (∃ x, i = .bcd x) ∨ (∃ x, i = .storeRegs x) ∨ ∃ x, i = .loadRegs x)
    (he : s.i.toNat + k ≤ 0xFFF → NextInv (.next e)) : NextInv (s.withRange i k e) := by
  rcases s.withRange_cases i k e with ⟨hk, h⟩ | ⟨-, h⟩ <;> rw [h]
  · exact he hk
  · refine hs.nextInv_raiseIn (by decide) ⟨?_, ?_⟩
    · have := s.i.isLt
      show 0x1000 ≤ (BitVec.ofNat 16 (max s.i.toNat 0x1000)).toNat
      rw [BitVec.toNat_ofNat]; omega
    · have hd : decodeWord (encode i) = .ok i := decodeWord_encode (by
        rcases hi with ⟨x, y, n, rfl⟩ | ⟨x, rfl⟩ | ⟨x, rfl⟩ | ⟨x, rfl⟩ <;> rfl)
      show _ ∨ _
      simpa [hd] using hi

/-- A key instruction whose operand names no key raises KEY_RANGE with that operand as its address (R240, R261). -/
theorem State.ExecInv.nextInv_keyRange {i : Instr} {b : Byte} (hb : keyOf b = none)
    (hi : (∃ x, i = .skipKeyDown x) ∨ ∃ x, i = .skipKeyUp x) :
    NextInv (.next (s.raiseIn i .keyRange (b.setWidth 16))) := by
  have hlt := b.isLt
  have hge : 16 ≤ b.toNat := by simpa [keyOf] using hb
  have hd : decodeWord (encode i) = .ok i := decodeWord_encode (by rcases hi with ⟨x, rfl⟩ | ⟨x, rfl⟩ <;> rfl)
  have ha : (b.setWidth 16).toNat = b.toNat := by rw [BitVec.toNat_setWidth]; omega
  refine hs.nextInv_raiseIn (by decide) ⟨?_, ?_, ?_⟩
  · show 16 ≤ (b.setWidth 16).toNat
    omega
  · show (b.setWidth 16).toNat ≤ _
    omega
  · simpa [hd] using hi

/-- Return: an underflow fault, or a jump to the top address, which is a possible pc (R122). -/
theorem State.ExecInv.nextInv_ret : NextInv (execRet s) := by
  by_cases h0 : s.callStack.sp = 0
  · rw [execRet, if_pos h0]
    exact hs.nextInv_raiseIn (by decide) ⟨rfl, rfl⟩
  · obtain ⟨a, htop, ha⟩ := CallStack.top?_eq_some h0 hs.inv.sp_le
    rw [execRet, if_neg h0, htop]
    exact (hs.inv.setCallStack_drop.setPc (hs.inv.entries_le a ha)).nextInv

/-- Call: an overflow fault on a full stack, or the return address saved and a jump to NNN (R125). -/
theorem State.ExecInv.nextInv_call (nnn : Addr12) : NextInv (execCall nnn s) := by
  rcases Nat.lt_or_eq_of_le hs.inv.sp_le with hlt | heq
  · rw [execCall, if_neg (Nat.ne_of_lt hlt), if_pos hlt]
    exact ((hs.inv.setCallStack_push hlt hs.inv.pc_le).setPc (addrOf_le_pcLimit nnn)).nextInv
  · rw [execCall, if_pos heq]
    exact hs.nextInv_raiseIn (by decide) ⟨⟨nnn, decodeWord_encode rfl⟩, rfl⟩

theorem State.ExecInv.nextInv_jumpPlus (nnn : Addr12) : NextInv (execJumpPlus nnn s) := by
  refine (hs.inv.setPc ?_).nextInv
  have := (s.getV 0).isLt
  have := nnn.isLt
  simp only [BitVec.toNat_ofNat, pcLimit]; omega

theorem State.ExecInv.nextInv_skipIf (b : Bool) : NextInv (.next (s.skipIf b)) := (hs.inv.skipIf hs.pc_le b).nextInv

theorem State.ExecInv.nextInv_skipKeyDown (x : Reg) : NextInv (execSkipKeyDown x s) := by
  rw [execSkipKeyDown]
  cases hk : keyOf (s.getV x) with
  | some k => exact hs.nextInv_skipIf _
  | none => exact hs.nextInv_keyRange hk (.inl ⟨x, rfl⟩)

theorem State.ExecInv.nextInv_skipKeyUp (x : Reg) : NextInv (execSkipKeyUp x s) := by
  rw [execSkipKeyUp]
  cases hk : keyOf (s.getV x) with
  | some k => exact hs.nextInv_skipIf _
  | none => exact hs.nextInv_keyRange hk (.inr ⟨x, rfl⟩)

theorem State.ExecInv.nextInv_bcd (x : Reg) : NextInv (execBcd x s) :=
  hs.nextInv_withRange (.inr (.inl ⟨x, rfl⟩)) fun hk =>
    (hs.inv.setMem_writeBytes (by simp only [State.dataAddr, digits, List.length, memSize]; omega)).nextInv

theorem State.ExecInv.nextInv_storeRegs (x : Reg) : NextInv (execStoreRegs x s) :=
  hs.nextInv_withRange (.inr (.inr (.inl ⟨x, rfl⟩))) fun hk =>
    ((hs.inv.setMem_writeBytes (by rw [State.regBlock_length, State.dataAddr, memSize]; omega)).incI x).nextInv

theorem State.ExecInv.nextInv_draw (x y : Reg) (n : Fin 16) : NextInv (execDraw x y n s) := by
  have hd : NextInv (.next (s.drawn x y n)) := ((hs.inv.setDisp _).setV vf _).nextInv_requestPush
  rw [execDraw]; split
  · exact hd
  · exact hs.nextInv_withRange (.inl ⟨x, y, n, rfl⟩) fun _ => hd

/-- Every instruction completes, and its result has the invariant (R280). -/
theorem State.ExecInv.nextInv_exec (i : Instr) : NextInv (exec i s) :=
  match i with
  | .clear => (hs.inv.setDisp Display.off).nextInv_requestPush
  | .ret => hs.nextInv_ret
  | .legacyCall _ => hs.inv.nextInv
  | .jump nnn => (hs.inv.setPc (addrOf_le_pcLimit nnn)).nextInv
  | .call nnn => hs.nextInv_call nnn
  | .skipEqImm _ _ => hs.nextInv_skipIf _
  | .skipNeqImm _ _ => hs.nextInv_skipIf _
  | .skipEqReg _ _ => hs.nextInv_skipIf _
  | .loadImm x _ => (hs.inv.setV x _).nextInv
  | .addImm x _ => (hs.inv.setV x _).nextInv
  | .copy x _ => (hs.inv.setV x _).nextInv
  | .or x _ => (hs.inv.commitBitwise x _).nextInv
  | .and x _ => (hs.inv.commitBitwise x _).nextInv
  | .xor x _ => (hs.inv.commitBitwise x _).nextInv
  | .add x _ => (hs.inv.commit x _ _).nextInv
  | .sub x _ => (hs.inv.commitUnlessVF x _ _).nextInv
  | .shr x _ => (hs.inv.commit x _ _).nextInv
  | .subn x _ => (hs.inv.commitUnlessVF x _ _).nextInv
  | .shl x _ => (hs.inv.commit x _ _).nextInv
  | .skipNeqReg _ _ => hs.nextInv_skipIf _
  | .loadI _ => (hs.inv.setI _).nextInv
  | .jumpPlus nnn => hs.nextInv_jumpPlus nnn
  | .rand x _ => (hs.inv.setV x _).nextInv
  | .draw x y n => hs.nextInv_draw x y n
  | .skipKeyDown x => hs.nextInv_skipKeyDown x
  | .skipKeyUp x => hs.nextInv_skipKeyUp x
  | .readDelay x => (hs.inv.setV x _).nextInv
  | .waitKey x => (hs.inv.enterWait x hs.released hs.not_halted).nextInv
  | .writeDelay _ => (hs.inv.setDT _).nextInv
  | .writeSound _ => (hs.inv.setST _).nextInv
  | .addI _ => (hs.inv.setI _).nextInv
  | .spriteAddr _ => (hs.inv.setI _).nextInv
  | .bcd x => hs.nextInv_bcd x
  | .storeRegs x => hs.nextInv_storeRegs x
  | .loadRegs x => hs.nextInv_withRange (.inr (.inr (.inr ⟨x, rfl⟩))) fun _ => ((hs.inv.setRegs _).incI x).nextInv

end Instructions

/-! ## The pass and the host's acts -/

/-- Executing one instruction of a block that is not halted: a fetch fault, an unknown word, or the meaning of an
instruction (R101, R102). -/
theorem State.Inv.nextInv_executeOne {s : State} (hs : s.Inv) (hr : s.rst = .released) (hh : s.runState ≠ .halted) :
    NextInv (executeOne s) := by
  have hadv : s.fetchWord ≠ none → s.advance.ExecInv := fun hw => by
    have hpc : s.pc.toNat + 1 ≤ 0xFFF := by rw [ne_eq, State.fetchWord_eq_none_iff] at hw; omega
    have hle : (s.pc + 2#16).toNat ≤ 0x1000 := by
      simp only [BitVec.toNat_add, BitVec.toNat_ofNat]; omega
    exact ⟨hs.setPc (Nat.le_trans hle (by decide)), hr, hh, hle⟩
  rcases executeOne_cases s with ⟨hw, h⟩ | ⟨w, e, hw, hd, h⟩ | ⟨w, i, hw, -, h⟩ <;> rw [h]
  · rw [State.fetchWord_eq_none_iff] at hw
    refine (hs.raiseFault hr (f := fetchFault s.pc) ⟨rfl, Nat.le_of_lt_succ hw, ?_⟩ (nomatch ·)).nextInv
    have := s.pc.isLt
    simp only [fetchFault, BitVec.toNat_ofNat]; omega
  · obtain rfl := eq_unknownOpcode_of_decodeWord hd
    have ha := hadv (by simp [hw])
    exact (ha.inv.raiseFault hr (f := unknownFault s.pc w) ⟨hd, rfl⟩ (nomatch ·)).nextInv
  · exact (hadv (by simp [hw])).nextInv_exec i

/-- Every pass completes, and its result has the invariant (R280). -/
theorem State.Inv.runPass {s : State} (hs : s.Inv) (hr : s.rst = .released) (p : PassInputs) :
    ∃ t, runPass p s = .next t ∧ t.Inv := by
  have ht : ((s.setPorts p).clearOutputs).Inv := (hs.setPorts p).clearOutputs
  rcases runPass_cases p s with ⟨-, h⟩ | ⟨-, -, h⟩ | ⟨hh, -, h⟩ <;> rw [h]
  · exact ⟨_, rfl, ht⟩
  · exact ⟨_, rfl, ht.keyPhase.halt (by decide) (by decide) (by simp [hr])⟩
  · have hslot := ht.keyPhase.timerPhase
    rcases executePhase_cases ((s.setPorts p).clearOutputs).keyPhase.timerPhase with ⟨-, h⟩ | ⟨-, -, h⟩ <;> rw [h]
    · exact ⟨_, rfl, hslot⟩
    · obtain ⟨t, h, hinv⟩ := hslot.nextInv_executeOne (by simp [hr])
        (by simpa [State.keyPhase_runState_eq_halted_iff] using hh)
      exact ⟨_, by rw [h]; rfl, hinv⟩

theorem reset_inv : State.reset.Inv where
  mem_wf := reset_mem_wf
  depth_pos := by decide
  sp_le := Nat.zero_le _
  entries_le := fun a ha => by simp [List.eq_of_mem_replicate ha]
  pc_le := (by decide : (0x0200#16).toNat ≤ pcLimit)
  halt_iff := iff_of_true rfl (nomatch ·)
  halt_fault := (nomatch ·)
  fault_sound := ⟨rfl, rfl, rfl⟩
  event_fault := (nomatch ·)
  push_clear := rfl
  rst_running := fun _ => rfl

/-- An assertion of `rst` gives the reset state but for memory, the stack, the configuration, the line and the model's
bookkeeping (R320, R321). -/
theorem State.Inv.assertReset {s : State} (hs : s.Inv) (c : Cfg) : (s.assertReset c).Inv :=
  { reset_inv with
    mem_wf := resetMemory_wf s.font
    depth_pos := by simpa [State.assertReset, CallStack.depth] using hs.depth_pos
    sp_le := Nat.zero_le _
    entries_le := fun a ha => by simp [List.eq_of_mem_replicate ha]
    rst_running := fun _ => rfl }

theorem State.Inv.loadImage {s : State} (hs : s.Inv) (hr : s.rst ≠ .released) (r : LoadRequest) :
    (s.loadImage r).Inv := by
  cases r with
  | unreadable => exact hs.setRst_asserted .failed hr
  | image bytes =>
    rw [State.loadImage]; split
    case isTrue => exact hs.setRst_asserted .failed hr
    case isFalse hfit =>
      exact (hs.setMem_writeBytes (by omega)).setRst_asserted .ok hr

theorem State.Inv.releaseReset {s : State} (hs : s.Inv) : s.releaseReset.Inv := by
  rw [State.releaseReset]
  split
  · exact hs.setRst_released.halt (r := .loadError) (by decide) (by decide) rfl
  · exact hs.setRst_released
  · exact hs.setRst_released
  · exact hs

/-- What a step from a state with the invariant answers: a next state with the invariant, or the refusal of one of the
two host acts that the spec refuses (R44, R327). -/
theorem State.Inv.step_cases {s : State} (hs : s.Inv) :
    (∃ t, step s = .next t ∧ t.Inv) ∨
    (∃ w, s.nextEvent = .assertReset w ∧ cfgOfBits w = none ∧ step s = .refused .reservedConfig) ∨
    (∃ r, s.nextEvent = .loadImage r ∧ s.rst ≠ .asserted .notCalled ∧ step s = .refused .loadUnavailable) := by
  have ht := hs.takeEvent
  cases he : s.nextEvent with
  | pass p =>
    left
    cases hr : s.rst with
    | released => simpa [step, he, applyEvent, hostPass, hr] using ht.runPass hr p
    | asserted l => exact ⟨s.takeEvent, by simp [step, he, applyEvent, hostPass, hr], ht⟩
  | assertReset w =>
    cases hw : cfgOfBits w with
    | some c => exact .inl ⟨_, by simp [step, he, applyEvent, hostAssertReset, hw], ht.assertReset c⟩
    | none => exact .inr (.inl ⟨w, rfl, hw, by simp [step, he, applyEvent, hostAssertReset, hw]⟩)
  | loadImage r =>
    by_cases hr : s.rst = .asserted .notCalled
    · exact .inl ⟨s.takeEvent.loadImage r, by simp [step, he, applyEvent, hostLoadImage, hr],
        ht.loadImage (by simp [hr]) r⟩
    · refine .inr (.inr ⟨r, rfl, hr, ?_⟩)
      rw [step, he, applyEvent, hostLoadImage, State.takeEvent_rst]
      split <;> simp_all
  | releaseReset => exact .inl ⟨_, by rw [step, he]; rfl, ht.releaseReset⟩

/-- Settles O53: the state that a step answers is the one `State.Inv.step_cases` gives. -/
theorem stepKeepsInvariant : Obligations.StepKeepsInvariant := by
  intro s t hs h
  rcases hs.step_cases with ⟨u, hu, hinv⟩ | ⟨w, -, -, hw⟩ | ⟨r, -, -, hr⟩
  · rw [hu] at h; cases h; exact hinv
  · rw [hw] at h; cases h
  · rw [hr] at h; cases h

/-- Settles O55, by the cases of a step from a state with the invariant. -/
theorem stepsStopOnlyAtRefusedHostActs : Obligations.StepsStopOnlyAtRefusedHostActs := fun _ hs =>
  hs.step_cases.imp_left fun ⟨t, ht, _⟩ => ⟨t, ht⟩

/-- Settles O54, field by field of the reset state. -/
theorem resetHasInvariant : Obligations.ResetHasInvariant := reset_inv

end Sys2Proof.Machine
end

section
/-! PROOFS. Which instructions can change which part of the state (10_state.md R21, R27 to R32, R40, 20_memory.md R79),
as one table with one theorem over all instructions (O49). -/

namespace Sys2Proof.Machine

/-! ## Frames of updates, and of one update after another -/

section Frames

variable {s t u : State} {l l' : List Part}

theorem Part.Same.trans {p : Part} (h1 : p.Same s t) (h2 : p.Same t u) : p.Same s u := by
  cases p <;> simp_all [Part.Same]

theorem UnchangedExcept.trans (h1 : UnchangedExcept l s t) (h2 : UnchangedExcept l' t u) :
    UnchangedExcept (l ++ l') s u := fun p hp =>
  (h1 p fun h => hp (List.mem_append_left _ h)).trans (h2 p fun h => hp (List.mem_append_right _ h))

theorem unchangedExcept_refl (l : List Part) (s : State) : UnchangedExcept l s s := by
  intro p _; cases p <;> simp [Part.Same]

variable (s)

theorem setRegs_unchangedExcept (v : Vector Byte 16) : UnchangedExcept [.regs] s (s.setRegs v) := by
  intro p hp; cases p <;> simp_all [Part.Same]

theorem setCallStack_unchangedExcept (c : CallStack) : UnchangedExcept [.callStack] s (s.setCallStack c) := by
  intro p hp; cases p <;> simp_all [Part.Same]

theorem setDT_unchangedExcept (b : Byte) : UnchangedExcept [.delayTimer] s (s.setDT b) := by
  intro p hp; cases p <;> simp_all [Part.Same]

theorem setST_unchangedExcept (b : Byte) : UnchangedExcept [.soundTimer] s (s.setST b) := by
  intro p hp; cases p <;> simp_all [Part.Same]

theorem setDisp_unchangedExcept (d : Display) : UnchangedExcept [.display] s (s.setDisp d) := by
  intro p hp; cases p <;> simp_all [Part.Same]

theorem setMem_unchangedExcept (m : Memory) : UnchangedExcept [.memory] s (s.setMem m) := by
  intro p hp; cases p <;> simp_all [Part.Same]

theorem enterWait_unchangedExcept (x : Reg) : UnchangedExcept [.runState, .waitReg] s (s.enterWait x) := by
  intro p hp; cases p <;> simp_all [Part.Same]

theorem requestPush_unchangedExcept : UnchangedExcept [.pushPending] s s.requestPush := by
  intro p hp; cases p <;> simp_all [Part.Same, State.requestPush_eq]

theorem skipIf_unchangedExcept (b : Bool) : UnchangedExcept [.pc] s (s.skipIf b) := by
  rw [State.skipIf_eq]; exact setPc_unchangedExcept s _

theorem incI_unchangedExcept (x : Reg) : UnchangedExcept [.index] s (s.incI x) := by
  rw [State.incI_eq]; exact setI_unchangedExcept s _

theorem commitBitwise_unchangedExcept (x : Reg) (r : Byte) : UnchangedExcept [.regs] s (s.commitBitwise x r) := by
  rw [State.commitBitwise]; split
  · exact commit_unchangedExcept s x r 0#8
  · exact setV_unchangedExcept s x r

theorem commitUnlessVF_unchangedExcept (x : Reg) (d f : Byte) : UnchangedExcept [.regs] s (s.commitUnlessVF x d f) := by
  rw [State.commitUnlessVF_eq]; exact commit_unchangedExcept s x d f

theorem drawn_unchangedExcept (x y : Reg) (n : Fin 16) :
    UnchangedExcept [.display, .regs, .pushPending] s (s.drawn x y n) :=
  ((setDisp_unchangedExcept s _).trans (setV_unchangedExcept _ vf _)).trans (requestPush_unchangedExcept _)

end Frames

/-! ## The table -/

/-- The mnemonics of the instructions that may raise a fault (60_exceptions.md R261). -/
def faultingMnemonics : List String :=
  ["call", "return", "skip-key-down", "skip-key-up", "bcd", "store-regs", "load-regs", "draw"]

/-- The mnemonics of the instructions that may change a part of the state, by a fault or otherwise (10_state.md R21, R27,
R29 to R32; 20_memory.md R79; 40_control_flow.md R120; 60_exceptions.md R267). -/
def Part.changedBy (p : Part) : List String :=
  match p with
  | .regs => ["load-imm", "add-imm", "copy", "or", "and", "xor", "add", "sub", "shr", "subn", "shl", "rand", "draw",
      "read-delay", "load-regs"]
  | .index => ["load-I", "add-I", "sprite-addr", "store-regs", "load-regs"]
  | .pc => ["jump", "call", "return", "jump-plus", "skip-eq-imm", "skip-neq-imm", "skip-eq-reg", "skip-neq-reg",
      "skip-key-down", "skip-key-up"]
  | .callStack => ["call", "return"]
  | .delayTimer => ["write-delay"]
  | .soundTimer => ["write-sound"]
  | .display => ["clear", "draw"]
  | .memory => ["bcd", "store-regs"]
  | .runState => "wait-key" :: faultingMnemonics
  | .waitReg => ["wait-key"]
  | .haltReason => faultingMnemonics
  | .faultRecord => faultingMnemonics
  | .faultEvent => faultingMnemonics
  | .pushPending => ["clear", "draw"]
  | .keys => []
  | .config => []
  | .displayOut => []
  | .platform => []

/-- Whatever next state the outcome is, the parts that the table does not give to the mnemonic `m` are those of `s`. -/
def KeepsParts (m : String) (s : State) (o : Host.Outcome State Fault Refusal) : Prop :=
  ∀ t, o = .next t → ∀ p : Part, m ∉ p.changedBy → p.Same s t

theorem UnchangedExcept.keepsParts {m : String} {l : List Part} {s t : State} (h : UnchangedExcept l s t)
    (hl : ∀ p ∈ l, m ∈ p.changedBy) : KeepsParts m s (.next t) := by
  rintro _ ⟨⟩ p hp
  exact h p fun hpl => hp (hl p hpl)

theorem keepsParts_fault (m : String) (s : State) (f : Fault) : KeepsParts m s (.fault f) := fun _ h => nomatch h

theorem keepsParts_raiseIn {m : String} (hm : m ∈ faultingMnemonics) (s : State) (i : Instr) (c : FaultCause)
    (a : Word) : KeepsParts m s (.next (s.raiseIn i c a)) :=
  (raiseIn_faulted s i c a).2.2.keepsParts (by simp [Part.changedBy, hm])

theorem keepsParts_withRange {m : String} (hm : m ∈ faultingMnemonics) {s e : State} (he : KeepsParts m s (.next e))
    (i : Instr) (k : Nat) : KeepsParts m s (s.withRange i k e) := by
  rcases s.withRange_cases i k e with ⟨-, h⟩ | ⟨-, h⟩ <;> rw [h]
  · exact he
  · exact keepsParts_raiseIn hm s i _ _

theorem keepsParts_ret (s : State) : KeepsParts "return" s (execRet s) := by
  rw [execRet]; split
  · exact keepsParts_raiseIn (by decide) s _ _ _
  · split
    · exact ((setCallStack_unchangedExcept s _).trans (setPc_unchangedExcept _ _)).keepsParts (by decide)
    · exact keepsParts_fault _ s _

theorem keepsParts_call (nnn : Addr12) (s : State) : KeepsParts "call" s (execCall nnn s) := by
  rw [execCall]; split
  · exact keepsParts_raiseIn (by decide) s _ _ _
  · split
    · exact ((setCallStack_unchangedExcept s _).trans (setPc_unchangedExcept _ _)).keepsParts (by decide)
    · exact keepsParts_fault _ s _

theorem keepsParts_skipKeyDown (x : Reg) (s : State) : KeepsParts "skip-key-down" s (execSkipKeyDown x s) := by
  rw [execSkipKeyDown]; split
  · exact (skipIf_unchangedExcept s _).keepsParts (by decide)
  · exact keepsParts_raiseIn (by decide) s _ _ _

theorem keepsParts_skipKeyUp (x : Reg) (s : State) : KeepsParts "skip-key-up" s (execSkipKeyUp x s) := by
  rw [execSkipKeyUp]; split
  · exact (skipIf_unchangedExcept s _).keepsParts (by decide)
  · exact keepsParts_raiseIn (by decide) s _ _ _

theorem keepsParts_draw (x y : Reg) (n : Fin 16) (s : State) : KeepsParts "draw" s (execDraw x y n s) := by
  have hd : KeepsParts "draw" s (.next (s.drawn x y n)) := (drawn_unchangedExcept s x y n).keepsParts (by decide)
  rw [execDraw]; split
  · exact hd
  · exact keepsParts_withRange (by decide) hd _ _

/-- Every instruction keeps the parts that the table does not give to its mnemonic. -/
theorem keepsParts_exec (i : Instr) (s : State) : KeepsParts i.mnemonic s (exec i s) :=
  match i with
  | .clear =>
      ((setDisp_unchangedExcept s _).trans (requestPush_unchangedExcept _)).keepsParts (m := "clear") (by decide)
  | .ret => keepsParts_ret s
  | .legacyCall _ => (unchangedExcept_refl [] s).keepsParts (m := "legacy-call") (by decide)
  | .jump _ => (setPc_unchangedExcept s _).keepsParts (m := "jump") (by decide)
  | .call nnn => keepsParts_call nnn s
  | .skipEqImm _ _ => (skipIf_unchangedExcept s _).keepsParts (m := "skip-eq-imm") (by decide)
  | .skipNeqImm _ _ => (skipIf_unchangedExcept s _).keepsParts (m := "skip-neq-imm") (by decide)
  | .skipEqReg _ _ => (skipIf_unchangedExcept s _).keepsParts (m := "skip-eq-reg") (by decide)
  | .loadImm x _ => (setV_unchangedExcept s x _).keepsParts (m := "load-imm") (by decide)
  | .addImm x _ => (setV_unchangedExcept s x _).keepsParts (m := "add-imm") (by decide)
  | .copy x _ => (setV_unchangedExcept s x _).keepsParts (m := "copy") (by decide)
  | .or x _ => (commitBitwise_unchangedExcept s x _).keepsParts (m := "or") (by decide)
  | .and x _ => (commitBitwise_unchangedExcept s x _).keepsParts (m := "and") (by decide)
  | .xor x _ => (commitBitwise_unchangedExcept s x _).keepsParts (m := "xor") (by decide)
  | .add x _ => (commit_unchangedExcept s x _ _).keepsParts (m := "add") (by decide)
  | .sub x _ => (commitUnlessVF_unchangedExcept s x _ _).keepsParts (m := "sub") (by decide)
  | .shr x _ => (commit_unchangedExcept s x _ _).keepsParts (m := "shr") (by decide)
  | .subn x _ => (commitUnlessVF_unchangedExcept s x _ _).keepsParts (m := "subn") (by decide)
  | .shl x _ => (commit_unchangedExcept s x _ _).keepsParts (m := "shl") (by decide)
  | .skipNeqReg _ _ => (skipIf_unchangedExcept s _).keepsParts (m := "skip-neq-reg") (by decide)
  | .loadI _ => (setI_unchangedExcept s _).keepsParts (m := "load-I") (by decide)
  | .jumpPlus _ => (setPc_unchangedExcept s _).keepsParts (m := "jump-plus") (by decide)
  | .rand x _ => (setV_unchangedExcept s x _).keepsParts (m := "rand") (by decide)
  | .draw x y n => keepsParts_draw x y n s
  | .skipKeyDown x => keepsParts_skipKeyDown x s
  | .skipKeyUp x => keepsParts_skipKeyUp x s
  | .readDelay x => (setV_unchangedExcept s x _).keepsParts (m := "read-delay") (by decide)
  | .waitKey x => (enterWait_unchangedExcept s x).keepsParts (m := "wait-key") (by decide)
  | .writeDelay _ => (setDT_unchangedExcept s _).keepsParts (m := "write-delay") (by decide)
  | .writeSound _ => (setST_unchangedExcept s _).keepsParts (m := "write-sound") (by decide)
  | .addI _ => (setI_unchangedExcept s _).keepsParts (m := "add-I") (by decide)
  | .spriteAddr _ => (setI_unchangedExcept s _).keepsParts (m := "sprite-addr") (by decide)
  | .bcd x => keepsParts_withRange (m := "bcd") (by decide)
      ((setMem_unchangedExcept s _).keepsParts (by decide)) (.bcd x) 2
  | .storeRegs x => keepsParts_withRange (m := "store-regs") (by decide)
      (((setMem_unchangedExcept s _).trans (incI_unchangedExcept _ x)).keepsParts (by decide)) (.storeRegs x) x.val
  | .loadRegs x => keepsParts_withRange (m := "load-regs") (by decide)
      (((setRegs_unchangedExcept s _).trans (incI_unchangedExcept _ x)).keepsParts (by decide)) (.loadRegs x) x.val

/-- Settles O49: its clauses are rows of the table. -/
theorem onlyListedInstructionsChangeState : Obligations.OnlyListedInstructionsChangeState := by
  intro i s t h
  have hk := keepsParts_exec i s t h
  exact ⟨hk .regs, hk .index, hk .callStack, hk .delayTimer, hk .soundTimer, hk .display, hk .memory, hk .waitReg,
    hk .keys List.not_mem_nil, hk .config List.not_mem_nil, hk .displayOut List.not_mem_nil,
    hk .platform List.not_mem_nil⟩

end Sys2Proof.Machine
end

section
/-! PROOFS. The values right after reset (10_state.md R48) and the status port: CONFIG's bits and the control registers
within their widths (10_state.md R40 to R45), O56 and O60. -/

namespace Sys2Proof.Machine

/-! ## The reset state -/

/-- A byte of the default font is what its address reads as where nothing is listed (R33, R326). -/
theorem unlistedByte_eq_defaultFont (k : Fin 80) : unlistedByte k.val = defaultFont[k.val] := by
  simp [unlistedByte, defaultFont]

/-- Settles O56: memory is read by what an unlisted byte holds, and the other fields are written in the reset state. -/
theorem resetValues : Obligations.ResetValues := by
  have hv (r : Reg) : State.reset.getV r = 0#8 := by simp [State.getV, State.reset]
  have hkeys (k : Key) : State.reset.getKey k = false := by simp [State.getKey, State.reset]
  have hdisp (y : Row) (x : Col) : State.reset.disp.pixel y x = false := Display.pixel_off y x
  have hentries (a : Word) (ha : a ∈ State.reset.callStack.entries) : a = 0x0000#16 := List.eq_of_mem_replicate ha
  exact ⟨rfl, hv, rfl, rfl, rfl, hentries, rfl, rfl, hdisp, hkeys, unlistedByte_eq_defaultFont,
    fun _ ha => unlistedByte_of_le ha, rfl, rfl, rfl, rfl, rfl, rfl⟩

/-! ## The codes of CONFIG's fields -/

theorem incrementModeCode_lt (m : IncrementMode) : incrementModeCode m < 4 := by cases m <;> decide

theorem policyCode_lt (q : Policy) : policyCode q < 4 := by cases q <;> decide

/-- A mode is read from its code and from no other number (R44). -/
theorem incrementModeOf_eq_some_iff {n : Nat} {m : IncrementMode} :
    incrementModeOf n = some m ↔ n = incrementModeCode m := by
  constructor
  · intro h
    unfold incrementModeOf at h
    split at h <;> cases h <;> rfl
  · rintro rfl
    cases m <;> rfl

/-- A policy is read from its code and from no other number (R44). -/
theorem policyOf_eq_some_iff {n : Nat} {q : Policy} : policyOf n = some q ↔ n = policyCode q := by
  constructor
  · intro h
    unfold policyOf at h
    split at h <;> cases h <;> rfl
  · rintro rfl
    cases q <;> rfl

/-- Of two bits' values only 3 is reserved (R44). -/
theorem incrementModeOf_eq_none_iff {n : Nat} (h : n < 4) : incrementModeOf n = none ↔ n = 3 := by
  interval_cases n <;> decide

theorem policyOf_eq_none_iff {n : Nat} (h : n < 4) : policyOf n = none ↔ n = 3 := by
  interval_cases n <;> decide

theorem policyCode_iff (n : Nat) (q : Policy) : PolicyCode n q ↔ n = policyCode q := by
  cases q <;> simp [PolicyCode, policyCode] <;> omega

/-! ## CONFIG as a number -/

/-- The number of nine bits is a configuration exactly when each field holds its code (R44). -/
theorem configBits_iff (n : Nat) (c : Cfg) :
    ConfigBits n c ↔ n < 512 ∧ n % 2 = c.bitwiseQuirk.toNat ∧ n / 2 % 2 = c.shiftQuirk.toNat ∧
      n / 4 % 4 = incrementModeCode c.incrementMode ∧ n / 16 % 2 = c.drawOnCall.toNat ∧
      n / 32 % 4 = policyCode c.unknownOpcodePolicy ∧ n / 128 % 4 = policyCode c.stackUnderflowPolicy := by
  have hbit (k : Nat) (b : Bool) : (k % 2 = 1 ↔ b = true) ↔ k % 2 = b.toNat := by
    cases b <;> simp
  have hmode : (n / 4 % 4 = 0 ↔ c.incrementMode = .xPlus1) ∧ (n / 4 % 4 = 1 ↔ c.incrementMode = .x) ∧
      (n / 4 % 4 = 2 ↔ c.incrementMode = .none) ↔ n / 4 % 4 = incrementModeCode c.incrementMode := by
    cases c.incrementMode <;> simp [incrementModeCode] <;> omega
  simp only [ConfigBits, hbit, policyCode_iff, ← hmode, and_assoc]

/-- Every field's code fits its bits (R44). -/
theorem cfgCodes_lt (c : Cfg) :
    c.bitwiseQuirk.toNat < 2 ∧ c.shiftQuirk.toNat < 2 ∧ incrementModeCode c.incrementMode < 4 ∧
    c.drawOnCall.toNat < 2 ∧ policyCode c.unknownOpcodePolicy < 4 ∧ policyCode c.stackUnderflowPolicy < 4 :=
  ⟨c.bitwiseQuirk.toNat_lt, c.shiftQuirk.toNat_lt, incrementModeCode_lt _, c.drawOnCall.toNat_lt, policyCode_lt _,
    policyCode_lt _⟩

theorem toNat_cfgBits (c : Cfg) :
    (cfgBits c).toNat = c.bitwiseQuirk.toNat + 2 * c.shiftQuirk.toNat + 4 * incrementModeCode c.incrementMode
      + 16 * c.drawOnCall.toNat + 32 * policyCode c.unknownOpcodePolicy + 128 * policyCode c.stackUnderflowPolicy := by
  have := cfgCodes_lt c
  rw [cfgBits, BitVec.toNat_ofNat]; omega

/-- CONFIG, as the status port shows it, has every field at its bits (R44, R303). -/
theorem configBits_cfgBits (c : Cfg) : ConfigBits (cfgBits c).toNat c := by
  have := cfgCodes_lt c
  rw [configBits_iff, toNat_cfgBits]; omega

/-- The configuration inputs are read by the bits that the status port shows (R44). -/
theorem cfgOfBits_eq_some_iff (w : BitVec 9) (c : Cfg) : cfgOfBits w = some c ↔ ConfigBits w.toNat c := by
  have hbit (k : Nat) : w.toNat / 2 ^ k % 2 = (w.getLsbD k).toNat := (Nat.toNat_testBit w.toNat k).symm
  have hinj {a b : Bool} : a.toNat = b.toNat ↔ a = b := by cases a <;> cases b <;> decide
  have h0 : w.toNat % 2 = (w.getLsbD 0).toNat := by simpa using hbit 0
  have h1 : w.toNat / 2 % 2 = (w.getLsbD 1).toNat := hbit 1
  have h4 : w.toNat / 16 % 2 = (w.getLsbD 4).toNat := hbit 4
  rw [configBits_iff, h0, h1, h4, ← incrementModeOf_eq_some_iff, ← policyOf_eq_some_iff, ← policyOf_eq_some_iff,
    cfgOfBits]
  split
  case h_1 m u k hm hu hk =>
    cases c
    simp [hm, hu, hk, w.isLt, hinj]
  case h_2 h =>
    refine iff_of_false (nomatch ·) ?_
    rintro ⟨-, -, -, hm, -, hu, hk⟩
    exact h _ _ _ hm hu hk

theorem cfgOfBits_eq_none_iff (w : BitVec 9) : cfgOfBits w = none ↔
    (w.toNat / 4 % 4 = 3 ∨ w.toNat / 32 % 4 = 3 ∨ w.toNat / 128 % 4 = 3) := by
  rw [← incrementModeOf_eq_none_iff (Nat.mod_lt _ (by decide)), ← policyOf_eq_none_iff (Nat.mod_lt _ (by decide)),
    ← policyOf_eq_none_iff (Nat.mod_lt _ (by decide)), cfgOfBits]
  cases incrementModeOf (w.toNat / 4 % 4) with
  | none => simp
  | some m =>
    cases policyOf (w.toNat / 32 % 4) with
    | none => simp
    | some u => cases policyOf (w.toNat / 128 % 4) <;> simp

/-! ## The status port -/

/-- Every control register is below 2 to the power of its width (R40). -/
theorem statusRead_lt (s : State) (n : Fin 8) : s.statusRead n < 2 ^ [9, 2, 4, 2, 3, 16, 16, 16][n.val] :=
  match n with
  | 0 => (cfgBits s.cfg).isLt
  | 1 => by cases h : s.runState <;> simp [State.statusRead, runStateCode, h]
  | 2 => s.waitReg.isLt
  | 3 => by cases h : s.haltReason <;> simp [State.statusRead, haltReasonCode, h]
  | 4 => by cases h : s.fault.cause <;> simp [State.statusRead, faultCauseCode, h]
  | 5 => s.fault.pc.isLt
  | 6 => s.fault.opcode.isLt
  | 7 => s.fault.addr.isLt

/-- Settles O60: CR0 and the configuration inputs by CONFIG's fields, the other registers by their codes. -/
theorem statusPortFitsWidths : Obligations.StatusPortFitsWidths :=
  ⟨fun s => ⟨configBits_cfgBits s.cfg, rfl, rfl, rfl, rfl, rfl, rfl, rfl⟩, statusRead_lt,
    fun c => (cfgOfBits_eq_some_iff _ c).mpr (configBits_cfgBits c), cfgOfBits_eq_some_iff, cfgOfBits_eq_none_iff⟩

end Sys2Proof.Machine
end

section
/-! PROOFS. The bounds of memory: what a fetch inside it answers (20_memory.md R63) and what a data access that reaches
beyond it does (20_memory.md R67, 60_exceptions.md R267), O6 and O40. -/

namespace Sys2Proof.Machine

/-! ## Fetching -/

/-- Where both bytes of the instruction exist, they are fetched as one word (R63, R102). -/
theorem State.fetchWord_eq_some {s : State} (h : s.pc.toNat + 1 ≤ 0xFFF) :
    s.fetchWord = some (wordOfBytes (s.mem.read s.pc.toNat) (s.mem.read (s.pc.toNat + 1))) :=
  if_neg (Nat.not_lt.mpr h)

/-- Settles O6: the fetched word is the two bytes joined, the first one high. -/
theorem fetchIsBigEndian : Obligations.FetchIsBigEndian := fun _ h =>
  ⟨_, State.fetchWord_eq_some h, wordOfBytes_toNat _ _⟩

/-! ## Data accesses -/

/-- MEM_BOUNDS_DATA has no policy of its own, so the instruction that raises it halts the block (R263, R264). -/
theorem State.raiseIn_memBoundsData_halts (s : State) (i : Instr) (a : Word) :
    HaltedByFault (s.raiseIn i .memBoundsData a) :=
  State.raiseFault_halts (fun h => nomatch h) fun h => nomatch h

/-- An access whose last address is above 0xFFF faults in front of its effect, whatever the effect is (R67, R267). -/
theorem State.withRange_faulted {s : State} {k : Nat} (h : 0xFFF < s.dataAddr k) (i : Instr) (effect : State) :
    ∃ t, s.withRange i k effect = .next t ∧
      Faulted i .memBoundsData (BitVec.ofNat 16 (max (s.dataAddr 0) 0x1000)) s t ∧ HaltedByFault t := by
  rcases s.withRange_cases i k effect with ⟨hin, -⟩ | ⟨-, hout⟩
  · exact absurd h (Nat.not_lt.mpr hin)
  · exact ⟨_, hout, raiseIn_faulted s i _ _, s.raiseIn_memBoundsData_halts i _⟩

/-- A sprite with at least one row is drawn only once its range is checked (R222). -/
theorem exec_draw_eq_withRange {n : Fin 16} (hn : n.val ≠ 0) (x y : Reg) (s : State) :
    exec (.draw x y n) s = s.withRange (.draw x y n) (n.val - 1) (s.drawn x y n) := if_neg hn

/-- Settles O40: the four instructions check the range of their access before anything else. -/
theorem dataAccessBeyondMemoryHalts : Obligations.DataAccessBeyondMemoryHalts := by
  intro x y n s
  refine ⟨fun h => ?bcd, fun h => ?storeRegs, fun h => ?loadRegs, fun hn h => ?draw⟩
  case bcd => exact State.withRange_faulted h (.bcd x) _
  case storeRegs => exact State.withRange_faulted h (.storeRegs x) _
  case loadRegs => exact State.withRange_faulted h (.loadRegs x) _
  case draw =>
    rw [exec_draw_eq_withRange hn]
    exact State.withRange_faulted h (.draw x y n) _

end Sys2Proof.Machine
end

section
/-! PROOFS. Encoding and decoding words (30_encoding.md R91 to R96), O1 to O5: the encoder writes back what the decoder
read, every row of the opcode map decodes to its own mnemonic, and the unknown words are those of R96. -/

namespace Sys2Proof

/-! ## A word rebuilt from its fields, format by format -/

theorem encodeNNN_fieldNNN {w : Word} {op : Nat} (h : field w 15 12 = op) : encodeNNN op (fieldNNN w) = w := by
  have := w.isLt
  rw [field_op] at h
  apply BitVec.eq_of_toNat_eq
  rw [toNat_encodeNNN (by omega), fieldNNN_toNat]; omega

theorem encodeXNN_fieldX {w : Word} {op : Nat} {nn : Byte} (h : field w 15 12 = op) (hnn : field w 7 0 = nn.toNat) :
    encodeXNN op (fieldX w) nn = w := by
  have := w.isLt
  rw [field_op] at h
  rw [field_low8] at hnn
  apply BitVec.eq_of_toNat_eq
  rw [toNat_encodeXNN (by omega), fieldX_val]; omega

theorem encodeXYN_fieldX_fieldY {w : Word} {op : Nat} {n : Fin 16} (h : field w 15 12 = op)
    (hn : field w 3 0 = n.val) : encodeXYN op (fieldX w) (fieldY w) n = w := by
  have := w.isLt
  rw [field_op] at h
  rw [field_low4] at hn
  apply BitVec.eq_of_toNat_eq
  rw [toNat_encodeXYN (by omega), fieldX_val, fieldY_val]; omega

theorem field_low8_eq_fieldNN (w : Word) : field w 7 0 = (fieldNN w).toNat := by rw [field_low8, fieldNN_toNat]

theorem field_low4_eq_fieldN (w : Word) : field w 3 0 = (fieldN w).val := by rw [field_low4, fieldN_val]

/-! ## Round trips -/

/-- On every branch of the decoder the operands are the word's fields, and what is left of the word is the opcode, and
the low nibble or byte, that the branch has tested (R94). -/
theorem encode_of_decodeWord {w : Word} {i : Instr} (h : decodeWord w = .ok i) : encode i = w := by
  simp only [decodeWord] at h
  repeat' split at h
  all_goals cases h
  all_goals simp_all [encode, encodeNNN_fieldNNN, encodeXNN_fieldX, encodeXYN_fieldX_fieldY, field_low8_eq_fieldNN,
    field_low4_eq_fieldN]

/-- A decoded legacy-call is neither 00E0 nor 00EE, for these words decode to `clear` and `return` (R95). -/
theorem wellFormed_of_decodeWord {w : Word} {i : Instr} (h : decodeWord w = .ok i) : WellFormed i = true := by
  obtain rfl := encode_of_decodeWord h
  cases i with
  | legacyCall nnn =>
    have hclear : nnn ≠ 0x0E0#12 := by rintro rfl; cases h
    have hret : nnn ≠ 0x0EE#12 := by rintro rfl; cases h
    simp [WellFormed, hclear, hret]
  | _ => rfl

/-- Settles O1: the fields of an encoded word are its operands. -/
theorem decodeReadsBackEncode : Obligations.DecodeReadsBackEncode := fun _ h => decodeWord_encode h

/-- Settles O2: the encoder puts together the fields the decoder has read. -/
theorem encodeWritesBackDecode : Obligations.EncodeWritesBackDecode := fun _ _ h =>
  ⟨encode_of_decodeWord h, wellFormed_of_decodeWord h⟩

/-! ## The opcode map -/

theorem field_ofNat (n hi lo : Nat) : field (BitVec.ofNat 16 n) hi lo = n % 65536 / 2 ^ lo % 2 ^ (hi + 1 - lo) := by
  simp [field]

/-- A mask that is all ones on a field keeps the field. -/
theorem field_and (w m : Word) {hi lo : Nat} (hm : field m hi lo = 2 ^ (hi + 1 - lo) - 1) :
    field (w &&& m) hi lo = field w hi lo := by
  simp only [field] at hm ⊢
  rw [BitVec.toNat_and, Nat.and_div_two_pow, Nat.and_mod_two_pow, hm, Nat.and_two_pow_sub_one_eq_mod, Nat.mod_mod]

/-- A word that selects a row has the row's value in every field that the row's mask covers (R94). -/
theorem field_of_selects {r : OpcodeRow} {w : Word} (h : r.selects w = true) {hi lo : Nat}
    (hm : field r.mask hi lo = 2 ^ (hi + 1 - lo) - 1) : field w hi lo = field r.value hi lo := by
  rw [← field_and w r.mask hm, ← eq_of_beq h]

/-- A row of format FIXED selects one word. -/
theorem selects_fixed_iff {name : String} {v w : Word} :
    (OpcodeRow.mk name 0xFFFF#16 v).selects w = true ↔ w = v := by
  rw [OpcodeRow.selects, beq_iff_eq, show (0xFFFF#16 : Word) = BitVec.allOnes 16 from rfl, BitVec.and_allOnes]

/-- Whichever row of the opcode map a word selects, it decodes to that row's mnemonic; only 00E0 and 00EE, which
legacy-call's row selects as well, need R95. -/
theorem decodeWord_of_selects {w : Word} (hclear : w ≠ 0x00E0#16) (hret : w ≠ 0x00EE#16) :
    ∀ r ∈ opcodeMap, r.selects w = true → ∃ i, decodeWord w = .ok i ∧ i.mnemonic = r.mnemonic := by
  simp only [opcodeMap, opcodeMapLow, opcodeMapHigh, List.cons_append, List.nil_append, List.forall_mem_cons,
    List.not_mem_nil, false_implies, implies_true, and_true]
  refine ⟨fun h => absurd (selects_fixed_iff.mp h) hclear, fun h => absurd (selects_fixed_iff.mp h) hret, ?_⟩
  and_intros
  all_goals
    intro h
    simp [decodeWord, Instr.mnemonic, field_of_selects h, field_ofNat, hclear, hret]

section
open Laws.SelectsRow

/-- The opcode map has a row for every instruction, and it selects the instruction's word (R94). -/
theorem selectsRow (i : Instr) : Statement i :=
  match i with
  | .clear => clear
  | .ret => ret
  | .legacyCall nnn => legacyCall nnn
  | .jump nnn => jump nnn
  | .call nnn => call nnn
  | .skipEqImm x nn => skipEqImm x nn
  | .skipNeqImm x nn => skipNeqImm x nn
  | .skipEqReg x y => skipEqReg x y
  | .loadImm x nn => loadImm x nn
  | .addImm x nn => addImm x nn
  | .copy x y => copy x y
  | .or x y => Laws.SelectsRow.or x y
  | .and x y => Laws.SelectsRow.and x y
  | .xor x y => Laws.SelectsRow.xor x y
  | .add x y => add x y
  | .sub x y => sub x y
  | .shr x y => shr x y
  | .subn x y => subn x y
  | .shl x y => shl x y
  | .skipNeqReg x y => skipNeqReg x y
  | .loadI nnn => loadI nnn
  | .jumpPlus nnn => jumpPlus nnn
  | .rand x nn => rand x nn
  | .draw x y n => draw x y n
  | .skipKeyDown x => skipKeyDown x
  | .skipKeyUp x => skipKeyUp x
  | .readDelay x => readDelay x
  | .waitKey x => waitKey x
  | .writeDelay x => writeDelay x
  | .writeSound x => writeSound x
  | .addI x => addI x
  | .spriteAddr x => spriteAddr x
  | .bcd x => bcd x
  | .storeRegs x => storeRegs x
  | .loadRegs x => loadRegs x

end

/-- Settles O3: a row that selects the word decodes to its own mnemonic, and where no row does, the word is no
instruction's, for every instruction's word selects a row. -/
theorem decodeFollowsOpcodeMap : Obligations.DecodeFollowsOpcodeMap := by
  intro w
  by_cases hclear : w = 0x00E0#16
  · subst hclear; rfl
  by_cases hret : w = 0x00EE#16
  · subst hret; rfl
  cases hfind : opcodeMap.find? (·.selects w) with
  | some r =>
    have hsel : r.selects w = true := List.find?_some (p := fun r : OpcodeRow => r.selects w) hfind
    obtain ⟨i, hi, hm⟩ := decodeWord_of_selects hclear hret r (List.mem_of_find?_eq_some hfind) hsel
    simp [opcodeMapLookup, hfind, hi, hm]
  | none =>
    cases hd : decodeWord w with
    | error e => simp [opcodeMapLookup, hfind]
    | ok i =>
      obtain ⟨r, hr, -, hsel⟩ := selectsRow i
      rw [encode_of_decodeWord hd] at hsel
      exact absurd hsel (List.find?_eq_none.mp hfind r hr)

/-! ## The unknown words -/

/-- Settles O4: on every branch of the decoder the tests passed on the way decide R96's conditions. -/
theorem unknownWordsAreThoseListed : Obligations.UnknownWordsAreThoseListed := by
  intro w
  have hw := w.isLt
  simp only [decodeWord, field_op, field_low4, field_low8]
  repeat' split
  all_goals simp_all
  -- arithmetic is left for 0NNN, for the functions of 8XYn that are no instruction's, and above opcode 0xF
  all_goals omega

/-- Settles O5: the decoder evaluated on each word. -/
theorem wordsFromTheEncodingsDecode : Obligations.WordsFromTheEncodingsDecode :=
  ⟨rfl, rfl, rfl, rfl, rfl, rfl, rfl, rfl, rfl, rfl, rfl⟩

/-! ## Words as bytes -/

/-- Two bytes decode as the word they make, with nothing after it (R63, R90). -/
theorem decodeBytes_pair_eq_ok {hi lo : Byte} {i : Instr} {rest : List Byte}
    (h : decodeBytes [hi, lo] = .ok (i, rest)) : decodeWord (wordOfBytes hi lo) = .ok i := by
  simp only [decodeBytes] at h
  cases hd : decodeWord (wordOfBytes hi lo) <;> simp_all

/-- The word the table's decoder reads is the low bits of the number it is given. -/
theorem decodeTableWord_eq_some {n w : Nat} {i : Instr} (h : decodeTableWord n w = some i) :
    decodeWord (BitVec.ofNat 16 (w % 2 ^ n)) = .ok i := by
  simp only [decodeTableWord, bytesOfWord, decodeBytes, wordOfBytes_bytesOfWord] at h
  cases hd : decodeWord (BitVec.ofNat 16 (w % 2 ^ n)) <;> simp_all

end Sys2Proof
end

section
/-! PROOFS. What the execution slot of a pass does with the word at pc (30_encoding.md R101, R102), O7 to O10: it runs
the decoded instruction in the state after phases (a) and (b), or raises the fault of an unknown word or of a fetch. -/

namespace Sys2Proof.Machine

/-! ## Frames -/

theorem UnchangedExcept.mono {l l' : List Part} {s t : State} (h : UnchangedExcept l s t) (hl : l ⊆ l') :
    UnchangedExcept l' s t := fun q hq => h q fun hm => hq (hl hm)

section Frames

variable (s : State)

theorem advance_unchangedExcept : UnchangedExcept [.pc] s s.advance := setPc_unchangedExcept s _

theorem passStart_unchangedExcept (p : PassInputs) :
    UnchangedExcept [.faultEvent, .pushPending, .displayOut, .platform] s (s.passStart p) := by
  intro q hq; cases q <;> simp_all [Part.Same, State.getV, State.getKey]

theorem keyPhase_unchangedExcept : UnchangedExcept [.regs, .runState, .keys] s s.keyPhase := by
  intro q hq; cases q <;> simp_all [Part.Same]

theorem timerPhase_unchangedExcept : UnchangedExcept [.delayTimer, .soundTimer, .displayOut] s s.timerPhase := by
  intro q hq; cases q <;> simp_all [Part.Same, State.getV, State.getKey]

theorem raiseFault_unchangedExcept (f : FaultRecord) :
    UnchangedExcept [.runState, .haltReason, .faultRecord, .faultEvent] s (s.raiseFault f) := by
  intro q hq; cases q <;> simp_all [Part.Same, State.getV, State.getKey]

theorem placeWord_unchangedExcept (w : Word) :
    UnchangedExcept [.pc, .memory, .runState, .platform] s (s.placeWord w) := by
  intro q hq; cases q <;> simp_all [Part.Same, State.placeWord, State.getV, State.getKey]

end Frames

/-! ## The state of the execution slot -/

/-- Phase (b) on the timers and the display output: with a tick each timer counts down and, unless `draw_on_call`, the
display is presented (R285). -/
theorem State.timerPhase_timers (s : State) :
    s.timerPhase.dt.toNat = s.dt.toNat - s.ports.timerTick.toNat ∧
    s.timerPhase.st.toNat = s.st.toNat - s.ports.timerTick.toNat ∧
    s.timerPhase.displayOut =
      if s.ports.timerTick = true ∧ s.cfg.drawOnCall = false then some s.disp else s.displayOut := by
  rcases State.timerPhase_cases s with ⟨ht, h⟩ | ⟨ht, hd, h⟩ | ⟨ht, hd, h⟩ <;> rw [h] <;>
    simp [*, State.countTimers, countdown_toNat]

section Slot

variable (s : State) (p : PassInputs)

theorem State.slotState_pc : (s.slotState p).pc = s.pc := by simp [State.slotState]

theorem State.slotState_pushPending : (s.slotState p).pushPending = false := by simp [State.slotState]

theorem State.slotState_unchangedExcept :
    UnchangedExcept [.regs, .runState, .delayTimer, .soundTimer, .keys, .faultEvent, .pushPending, .displayOut,
      .platform] s (s.slotState p) :=
  (((passStart_unchangedExcept s p).trans (keyPhase_unchangedExcept _)).trans (timerPhase_unchangedExcept _)).mono
    (by simp)

/-- The slot's state is what phases (a) and (b) make of the old one (R280). -/
theorem State.slotState_afterInputAndTimers : AfterInputAndTimers s p (s.slotState p) := by
  obtain ⟨hdt, hst, hout⟩ := (s.passStart p).keyPhase.timerPhase_timers
  have hv : (s.slotState p).v = (s.passStart p).keyPhase.v := by simp [State.slotState]
  have hkeys : (s.slotState p).keys = (s.passStart p).keyPhase.keys := by simp [State.slotState]
  have hrun : (s.slotState p).runState = (s.passStart p).keyPhase.runState := by simp [State.slotState]
  refine ⟨State.getKey_congr hkeys, State.getV_congr hv, hrun, fun hw => ?notWaiting, ?timers⟩
  case notWaiting =>
    obtain ⟨hr', hv'⟩ := State.keyPhase_of_not_waiting (s := s.passStart p) hw
    exact ⟨hrun.trans hr', State.getV_congr (hv.trans hv')⟩
  case timers =>
    simpa [State.slotState, hdt, hst, hout] using s.slotState_unchangedExcept p

end Slot

/-! ## Executing one instruction, case by case -/

section ExecuteOne

variable {s : State} {w : Word}

theorem executeOne_of_decodes {i : Instr} (hw : s.fetchWord = some w) (hd : decodeWord w = .ok i) :
    executeOne s = exec i s.advance := by
  simp only [executeOne, hw, hd]

theorem executeOne_of_unknown {e : DecodeError} (hw : s.fetchWord = some w) (hd : decodeWord w = .error e) :
    executeOne s = .next (s.advance.raiseFault (unknownFault s.pc w)) := by
  simp only [executeOne, hw, hd]

theorem executeOne_of_fetchWord_eq_none (hw : s.fetchWord = none) :
    executeOne s = .next (s.raiseFault (fetchFault s.pc)) := by
  simp only [executeOne, hw]

end ExecuteOne

theorem State.finishPush_of_not_pending {s : State} (h : s.pushPending = false) : s.finishPush = s := by
  simp [State.finishPush, h]

section Step

variable {s : State} {p : PassInputs} (h : PassWith s p) (hr : (s.passStart p).keyPhase.runState = .running)
  (hq : p.quit = false) (he : p.execTick = true)

include h hr hq he

theorem step_of_slot_decodes {w : Word} {i : Instr} (hw : s.fetchWord = some w) (hd : decodeWord w = .ok i) :
    step s = afterInstruction (exec i (s.slotState p).advance) := by
  rw [step_of_slot h hr hq he, executeOne_of_decodes ((s.slotState_fetchWord p).trans hw) hd]

/-- A fault that is raised where no push is requested is the whole of the slot (R287). -/
theorem step_of_slot_raiseFault {t : State} {f : FaultRecord}
    (hx : executeOne (s.slotState p) = .next (t.raiseFault f)) (ht : t.pushPending = false) :
    step s = .next (t.raiseFault f) := by
  have hpush : (t.raiseFault f).pushPending = false := by simp [ht]
  rw [step_of_slot h hr hq he, hx, afterInstruction, State.finishPush_of_not_pending hpush]

end Step

/-! ## The policies -/

theorem State.raiseFault_haltedByFault {s : State} {f : FaultRecord} (h : s.resolve f.cause = .halt) :
    HaltedByFault (s.raiseFault f) := by
  simp [HaltedByFault, State.raiseFault, h]

theorem State.raiseFault_skippedFault {s : State} {f : FaultRecord} (h : s.resolve f.cause = .skip) :
    SkippedFault s (s.raiseFault f) := by
  simp [SkippedFault, State.raiseFault, h]

theorem resolvePolicy_eq_halt {q : Policy} {c : BitVec 2} (h : q = .halt ∨ q = .ask ∧ c ≠ 1#2) :
    resolvePolicy q c = .halt := by
  rcases h with rfl | ⟨rfl, hc⟩
  · rfl
  · exact if_neg hc

theorem resolvePolicy_eq_skip {q : Policy} {c : BitVec 2} (h : q = .skip ∨ q = .ask ∧ c = 1#2) :
    resolvePolicy q c = .skip := by
  rcases h with rfl | ⟨rfl, hc⟩
  · rfl
  · exact if_pos hc

/-! ## A word placed at the next fetch -/

theorem State.fetchableAddr_le (s : State) : s.fetchableAddr.toNat + 1 ≤ 0xFFF := by
  simp only [State.fetchableAddr]
  split
  · decide
  · omega

/-- The bytes of a word written to memory are read back as that word (R63). -/
theorem Memory.wordOfBytes_read_writeBytes (m : Memory) (a : Nat) (w : Word) :
    wordOfBytes ((m.writeBytes a (bytesOfWord w)).read a) ((m.writeBytes a (bytesOfWord w)).read (a + 1)) = w := by
  have hlen : (bytesOfWord w).length = 2 := rfl
  rw [Memory.read_writeBytes, Memory.read_writeBytes, if_pos (by omega), if_pos (by omega), Nat.sub_self,
    Nat.add_sub_cancel_left]
  exact wordOfBytes_bytesOfWord w

theorem State.placeWord_fetchWord (s : State) (w : Word) : (s.placeWord w).fetchWord = some w :=
  (State.fetchWord_eq_some (s := s.placeWord w) s.fetchableAddr_le).trans
    (congrArg some (Memory.wordOfBytes_read_writeBytes s.mem _ w))

theorem State.placeWord_read (s : State) (w : Word) {a : Nat}
    (h : a < s.fetchableAddr.toNat ∨ s.fetchableAddr.toNat + 1 < a) : (s.placeWord w).mem.read a = s.mem.read a :=
  Memory.read_writeBytes_outside h

/-- The next event after placing a word is a pass with nothing but an execution slot (log entry 10). -/
theorem placeWord_passWith (s : State) (w : Word) : PassWith (s.placeWord w) (execOnly s.ports) := ⟨rfl, rfl⟩

/-- Without key events and without a tick, phases (a) and (b) do nothing. -/
theorem State.slotState_execOnly (s : State) (q : PassInputs) :
    s.slotState (execOnly q) = s.passStart (execOnly q) := rfl

/-! ## The statements -/

/-- Settles O7: the slot executes the word at pc in its own state. -/
theorem stepRunsDecodedInstruction : Obligations.StepRunsDecodedInstruction := by
  intro s p i h hr hq he hpc hd
  obtain ⟨-, -, hrun, -⟩ := s.slotState_afterInputAndTimers p
  refine ⟨step_of_slot_decodes h hr hq he (State.fetchWord_eq_some hpc) (decodeBytes_pair_eq_ok hd), ?pc,
    advance_unchangedExcept _, hrun.trans hr, ?rst, s.slotState_afterInputAndTimers p⟩
  case pc => rw [State.advance_eq, State.setPc_pc, State.slotState_pc]
  case rst => simp [State.slotState, h.1]

/-- Settles O8: the placed word is fetched by the next pass, which changes nothing the fetch does not need. -/
theorem placedWordRunsNext : Obligations.PlacedWordRunsNext := by
  intro s n i h
  have hstep := step_of_slot_decodes (placeWord_passWith s _) rfl rfl rfl (s.placeWord_fetchWord _)
    (decodeTableWord_eq_some h)
  rw [State.slotState_execOnly] at hstep
  refine ⟨_, hstep, rfl, fun _ => State.placeWord_read s _, ?frame⟩
  case frame =>
    exact (((placeWord_unchangedExcept s _).trans (passStart_unchangedExcept _ _)).trans
      (advance_unchangedExcept _)).mono (by simp)

/-- Settles O9: the fault is raised with pc advanced, and the policy on unknown words resolves it. -/
theorem unknownWordRaisesFault : Obligations.UnknownWordRaisesFault := by
  intro s p w h hr hq he hw hd
  have hx := executeOne_of_unknown ((s.slotState_fetchWord p).trans hw) hd
  have hres : (s.slotState p).advance.resolve .unknownOpcode = resolvePolicy s.cfg.unknownOpcodePolicy p.opChoice := by
    simp [State.resolve, State.advance_eq, State.slotState]
  refine ⟨_, step_of_slot_raiseFault h hr hq he hx (s.slotState_pushPending p), ?record, by simp, ?pc,
    fun hp => State.raiseFault_haltedByFault (hres.trans (resolvePolicy_eq_halt hp)),
    fun hp => State.raiseFault_skippedFault (hres.trans (resolvePolicy_eq_skip hp)),
    (advance_unchangedExcept _).trans (raiseFault_unchangedExcept _ _)⟩
  case record => simp [unknownFault, State.slotState_pc]
  case pc => simp [State.advance_eq, State.slotState_pc]

/-- Settles O10: the fault is raised in the slot's state, before pc is advanced, and its cause has no policy. -/
theorem fetchBeyondMemoryHalts : Obligations.FetchBeyondMemoryHalts := by
  intro s p h hr hq he hpc
  have hw := (s.slotState_fetchWord p).trans (s.fetchWord_eq_none_iff.mpr hpc)
  have hx := executeOne_of_fetchWord_eq_none hw
  rw [State.slotState_pc] at hx
  have haddr : (fetchFault s.pc).addr.toNat = max s.pc.toNat 0x1000 := by
    have := s.pc.isLt
    simp only [fetchFault, BitVec.toNat_ofNat]; omega
  refine ⟨_, step_of_slot_raiseFault h hr hq he hx (s.slotState_pushPending p), ?_⟩
  obtain ⟨hfault, hevent⟩ := (s.slotState p).raiseFault_record (fetchFault s.pc)
  rw [hfault]
  exact ⟨rfl, rfl, rfl, haddr, hevent, State.raiseFault_haltedByFault rfl, raiseFault_unchangedExcept _ _⟩

end Sys2Proof.Machine
end

section
/-! PROOFS. Control flow (40_control_flow.md R120 to R130), O19 to O27 and O50: where each transfer and each skip leaves
pc, what call and return do to the stack, and that no other instruction moves pc. -/

namespace Sys2Proof

/-- Under the opcodes 5 and 9 only the low nibble 0 is an instruction's (R96). -/
theorem decodeWord_eq_unknownOpcode_of_low4 {n : Nat} (hop : n / 4096 = 0x5 ∨ n / 4096 = 0x9) (hn : n % 16 ≠ 0) :
    decodeWord (BitVec.ofNat 16 n) = .error (.unknownOpcode (BitVec.ofNat 16 n)) := by
  have hw : (BitVec.ofNat 16 n).toNat = n := by rw [BitVec.toNat_ofNat]; omega
  rw [unknownWordsAreThoseListed, hw]
  rcases hop with h | h
  · exact .inl ⟨h, hn⟩
  · exact .inr (.inr (.inl ⟨h, hn⟩))

end Sys2Proof

namespace Sys2Proof.Machine

/-! ## Words of the control flow formats -/

section Words

variable {i : Instr}

/-- A well-formed instruction has the word that the encoder gives it. -/
theorem hasWord_toNat_encode (hi : WellFormed i = true) : HasWord i (encode i).toNat :=
  ⟨rfl, by rw [BitVec.ofNat_toNat, BitVec.setWidth_eq]; exact decodeWord_encode hi⟩

theorem hasWord_of_encodeNNN {op : Nat} {nnn : Addr12} (hi : WellFormed i = true) (hop : op < 16)
    (he : encode i = encodeNNN op nnn) : HasWord i (op * 4096 + nnn.toNat) := by
  rw [← toNat_encodeNNN hop, ← he]
  exact hasWord_toNat_encode hi

theorem hasWord_of_encodeXNN {op : Nat} {x : Reg} {nn : Byte} (hi : WellFormed i = true) (hop : op < 16)
    (he : encode i = encodeXNN op x nn) : HasWord i (op * 4096 + 256 * x.val + nn.toNat) := by
  rw [Nat.mul_comm 256, ← toNat_encodeXNN hop, ← he]
  exact hasWord_toNat_encode hi

theorem hasWord_of_encodeXYN {op : Nat} {x y : Reg} {n : Fin 16} (hi : WellFormed i = true) (hop : op < 16)
    (he : encode i = encodeXYN op x y n) : HasWord i (op * 4096 + 256 * x.val + 16 * y.val + n.val) := by
  rw [Nat.mul_comm 256, Nat.mul_comm 16, ← toNat_encodeXYN hop, ← he]
  exact hasWord_toNat_encode hi

end Words

/-! ## Where pc goes -/

theorem toNat_addrOf (nnn : Addr12) : (addrOf nnn).toNat = nnn.toNat := by
  have := nnn.isLt
  rw [addrOf, BitVec.toNat_setWidth]; omega

/-- The target of a jump-plus is never reduced: the sum is at most 0x10FE (R130). -/
theorem toNat_jumpPlusTarget (b : Byte) (nnn : Addr12) :
    (BitVec.ofNat 16 (b.toNat + nnn.toNat)).toNat = b.toNat + nnn.toNat := by
  have := b.isLt
  have := nnn.isLt
  rw [BitVec.toNat_ofNat]; omega

/-- A target cannot be fetched from when it is 0xFFF or more (R102). -/
theorem setPc_fetchWord_eq_none_iff (s : State) (a : Word) : (s.setPc a).fetchWord = none ↔ 0xFFF ≤ a.toNat := by
  rw [State.fetchWord_eq_none_iff, State.setPc_pc, Nat.lt_succ_iff]

/-- `if b then Skip()` is the result of a skip on the condition that `b` tests (R121). -/
theorem skipIf_skipResult (s : State) {b : Bool} {c : Prop} (hb : b = true ↔ c) : SkipResult c s (s.skipIf b) := by
  refine ⟨fun hc => ?taken, fun hc => ?notTaken, skipIf_unchangedExcept s b⟩
  case taken => simp [hb.mpr hc]
  case notTaken => simp [mt hb.mp hc]

/-! ## The call stack -/

theorem CallStack.sp_ne_zero_of_top? {c : CallStack} {a : Word} (h : c.top? = some a) : c.sp ≠ 0 := by
  intro h0
  simp [CallStack.top?, h0] at h

theorem CallStack.top?_of_sp {c : CallStack} {k : Nat} (h : c.sp = k + 1) : c.top? = c.entries[k]? := by
  simp [CallStack.top?, h]

/-- A push writes the entry at SP. -/
theorem CallStack.push_entries_same {c : CallStack} (h : c.sp < c.depth) (a : Word) :
    (c.push a).entries[c.sp]? = some a := List.getElem?_set_self h

/-- A push keeps every entry but the one at SP. -/
theorem CallStack.push_entries_ne (c : CallStack) (a : Word) {k : Nat} (h : k ≠ c.sp) :
    (c.push a).entries[k]? = c.entries[k]? := List.getElem?_set_ne h.symm

/-! ## Call and return, case by case -/

section CallAndReturn

variable {s : State}

theorem exec_call_of_lt (h : s.callStack.sp < s.callStack.depth) (nnn : Addr12) :
    exec (.call nnn) s = .next ((s.setCallStack (s.callStack.push s.pc)).setPc (addrOf nnn)) :=
  (if_neg (Nat.ne_of_lt h)).trans (if_pos h)

theorem exec_call_of_full (h : s.callStack.sp = s.callStack.depth) (nnn : Addr12) :
    exec (.call nnn) s = .next (s.raiseIn (.call nnn) .stackOverflow 0#16) := if_pos h

theorem exec_ret_of_empty (h : s.callStack.sp = 0) : exec .ret s = .next (s.raiseIn .ret .stackUnderflow 0#16) :=
  if_pos h

theorem exec_ret_of_top? {a : Word} (h : s.callStack.top? = some a) :
    exec .ret s = .next ((s.setCallStack s.callStack.drop).setPc a) := by
  rw [exec, execRet, if_neg (CallStack.sp_ne_zero_of_top? h), h]

theorem setCallStack_setPc_unchangedExcept (s : State) (c : CallStack) (a : Word) :
    UnchangedExcept [.pc, .callStack] s ((s.setCallStack c).setPc a) :=
  ((setCallStack_unchangedExcept s c).trans (setPc_unchangedExcept _ a)).mono (by simp)

/-- The return after a call undoes all of it but the entry that the call wrote: pc is back at A + 2. -/
theorem exec_ret_of_called (h : s.callStack.sp < s.callStack.depth) (a : Word) :
    exec .ret ((s.setCallStack (s.callStack.push s.pc)).setPc a) =
      .next (s.setCallStack (s.callStack.push s.pc).drop) :=
  exec_ret_of_top? (CallStack.top?_push h s.pc)

end CallAndReturn

/-! ## The statements -/

/-- Settles O25: the return finds the pushed address on top and drops it. -/
theorem returnResumesAfterCall : Obligations.ReturnResumesAfterCall := fun nnn s h =>
  ⟨_, _, exec_call_of_lt h nnn, exec_ret_of_called h _, rfl, rfl,
    fun _ hk => CallStack.push_entries_ne _ _ (Nat.ne_of_lt hk), setCallStack_unchangedExcept s _⟩

/-- Settles O50: the row of pc in the table of what an instruction can change. -/
theorem otherInstructionsKeepPc : Obligations.OtherInstructionsKeepPc := fun i s t h hm =>
  keepsParts_exec i s t h .pc hm

/-- Settles O19: a jump writes pc only. -/
theorem jumpSetsPc : Obligations.JumpSetsPc := by
  intro nnn s
  refine ⟨hasWord_of_encodeNNN (op := 0x1) rfl (by decide) rfl, _, rfl, toNat_addrOf nnn,
    setPc_unchangedExcept s _, ?fetch⟩
  case fetch =>
    have := nnn.isLt
    rw [setPc_fetchWord_eq_none_iff, toNat_addrOf]; omega

/-- Settles O20: a jump-plus writes pc only, and its sum fits. -/
theorem jumpPlusAddsV0 : Obligations.JumpPlusAddsV0 := by
  intro nnn s
  refine ⟨hasWord_of_encodeNNN (op := 0xB) rfl (by decide) rfl, _, rfl, toNat_jumpPlusTarget _ nnn,
    setPc_unchangedExcept s _, ?fetch⟩
  case fetch => rw [setPc_fetchWord_eq_none_iff, toNat_jumpPlusTarget]

/-- Settles O21: a legacy-call is well-formed outside the words of `clear` and `return`, and its rule is empty. -/
theorem legacyCallDoesNothing : Obligations.LegacyCallDoesNothing := by
  intro nnn s
  refine ⟨fun hclear hret => ?word, rfl⟩
  case word =>
    have hwf : WellFormed (.legacyCall nnn) = true := by
      simp [WellFormed, BitVec.toNat_ne, hclear, hret]
    simpa using hasWord_of_encodeNNN (op := 0x0) hwf (by decide) rfl

/-- Settles O22: a push and a jump where there is room, the fault of a cause without a policy on a full stack. -/
theorem callPushesReturnAddress : Obligations.CallPushesReturnAddress := by
  intro nnn s
  refine ⟨hasWord_of_encodeNNN (op := 0x2) rfl (by decide) rfl, fun h => ?room, fun h => ?full⟩
  case room =>
    exact ⟨_, exec_call_of_lt h nnn, toNat_addrOf nnn, rfl, CallStack.push_depth _ _,
      CallStack.push_entries_same h s.pc, fun _ => CallStack.push_entries_ne _ _,
      setCallStack_setPc_unchangedExcept s _ _⟩
  case full =>
    exact ⟨_, exec_call_of_full h nnn, raiseIn_faulted s _ _ _, State.raiseFault_haltedByFault rfl⟩

/-- Settles O23: the entry below SP is the top. -/
theorem returnPopsAddress : Obligations.ReturnPopsAddress := by
  intro s k a hsp hk
  have htop : s.callStack.top? = some a := (CallStack.top?_of_sp hsp).trans hk
  refine ⟨_, exec_ret_of_top? htop, rfl, ?sp, rfl, setCallStack_setPc_unchangedExcept s _ a⟩
  case sp => simp [CallStack.drop, hsp]

/-- Settles O24: the fault is recorded, and the policy on underflow resolves it. -/
theorem returnOnEmptyStackFaults : Obligations.ReturnOnEmptyStackFaults := by
  intro s h
  have hres : s.resolve .stackUnderflow = resolvePolicy s.cfg.stackUnderflowPolicy s.ports.opChoice := rfl
  exact ⟨_, exec_ret_of_empty h, raiseIn_faulted s _ _ _, rfl,
    fun hp => State.raiseFault_haltedByFault (hres.trans (resolvePolicy_eq_halt hp)),
    fun hp => State.raiseFault_skippedFault (hres.trans (resolvePolicy_eq_skip hp))⟩

/-- Settles O26: both skips are `Skip()` on the test of V[X] against NN. -/
theorem skipsOnImmediate : Obligations.SkipsOnImmediate := fun x nn s =>
  ⟨⟨hasWord_of_encodeXNN (op := 0x3) rfl (by decide) rfl, _, rfl, skipIf_skipResult s beq_iff_eq⟩,
    ⟨hasWord_of_encodeXNN (op := 0x4) rfl (by decide) rfl, _, rfl, skipIf_skipResult s bne_iff_ne⟩⟩

/-- Settles O27: both skips are `Skip()` on the test of V[X] against V[Y]; another low nibble is no instruction's. -/
theorem skipsOnRegisters : Obligations.SkipsOnRegisters := by
  intro x y s
  refine ⟨⟨hasWord_of_encodeXYN (op := 0x5) (n := 0) rfl (by decide) rfl, _, rfl, skipIf_skipResult s beq_iff_eq⟩,
    ⟨hasWord_of_encodeXYN (op := 0x9) (n := 0) rfl (by decide) rfl, _, rfl, skipIf_skipResult s bne_iff_ne⟩,
    fun n hpos hlt => ?unknown⟩
  case unknown =>
    have := x.isLt
    have := y.isLt
    exact ⟨decodeWord_eq_unknownOpcode_of_low4 (.inl (by omega)) (by omega),
      decodeWord_eq_unknownOpcode_of_low4 (.inr (by omega)) (by omega)⟩

end Sys2Proof.Machine
end

section
/-! PROOFS. The register and arithmetic instructions (41_alu.md R150 to R163), O28 to O33: what each way of writing a
result leaves, what the results and the flags are as numbers, and the statements from both. -/

namespace Sys2Proof.Machine

/-! ## Words of the arithmetic group -/

/-- The word of an instruction of the 8XY_ group, by its `func` nibble. -/
theorem hasWord_of_encodeXYN_8 {i : Instr} {x y : Reg} {n : Fin 16} (hi : WellFormed i = true)
    (he : encode i = encodeXYN 0x8 x y n) : HasWord i (0x8000 + n.val + 256 * x.val + 16 * y.val) := by
  rw [Nat.add_right_comm 0x8000, Nat.add_right_comm _ n.val]
  exact hasWord_of_encodeXYN hi (by decide) he

/-! ## What a result written leaves -/

section Results

variable (s : State) (x : Reg)

/-- The flag is written last, so VF reads it whatever X is (R151). -/
theorem State.getV_commit (q : Reg) (r f : Byte) :
    (s.commit x r f).getV q = if vf = q then f else if x = q then r else s.getV q := by
  rw [State.commit_eq, State.getV_setV, State.getV_setV]

theorem setV_regResult {b : Byte} {r : Nat} (hr : b.toNat = r) : RegResult x r s (s.setV x b) :=
  ⟨by simpa using hr, setV_regsUnchangedExcept s x b, setV_unchangedExcept s x b⟩

theorem commit_flagResult {b c : Byte} {r f : Nat} (hr : b.toNat = r) (hf : c.toNat = f) :
    FlagResult x r f s (s.commit x b c) := by
  refine ⟨fun hx => ?result, ?flag, commit_regsUnchangedExcept s x b c, commit_unchangedExcept s x b c⟩
  case result => rwa [State.getV_commit, if_neg hx.symm, if_pos rfl]
  case flag => rwa [State.getV_commit, if_pos rfl]

theorem commitUnlessVF_flagResult {b c : Byte} {r f : Nat} (hr : b.toNat = r) (hf : c.toNat = f) :
    FlagResult x r f s (s.commitUnlessVF x b c) := by
  rw [State.commitUnlessVF_eq]; exact commit_flagResult s x hr hf

/-- With the quirk this is the flag 0 committed after the result, without it the result alone. -/
theorem commitBitwise_bitwiseResult (b : Byte) : BitwiseResult x b s (s.commitBitwise x b) := by
  rw [BitwiseResult, State.commitBitwise]
  split
  case isTrue =>
    refine ⟨fun hx => ?result, ?flag, commit_regsUnchangedExcept s x b _, commit_unchangedExcept s x b _⟩
    case result => rw [State.getV_commit, if_neg hx.symm, if_pos rfl]
    case flag => rw [State.getV_commit, if_pos rfl]
  case isFalse =>
    exact ⟨fun _ => by simp, State.getV_setV s x vf b,
      fun q hq => setV_regsUnchangedExcept s x b q (mt (List.mem_append_left [vf]) hq), setV_unchangedExcept s x b⟩

end Results

/-! ## Results and flags as numbers -/

theorem toNat_flagByte (b : Bool) : (flagByte b).toNat = b.toNat := by cases b <;> rfl

theorem toNat_flagByte_decide (p : Prop) [Decidable p] : (flagByte (decide p)).toNat = if p then 1 else 0 := by
  rw [toNat_flagByte, Bool.toNat, Bool.cond_decide]

theorem toNat_flagByte_getLsbD (b : Byte) (k : Nat) : (flagByte (b.getLsbD k)).toNat = b.toNat / 2 ^ k % 2 := by
  rw [toNat_flagByte, BitVec.getLsbD, Nat.toNat_testBit]

theorem toNat_carryFlag (a b : Byte) : (carryFlag a b).toNat = if a.toNat + b.toNat > 255 then 1 else 0 :=
  toNat_flagByte_decide _

theorem toNat_noBorrowFlag (a b : Byte) : (noBorrowFlag a b).toNat = if a.toNat ≥ b.toNat then 1 else 0 :=
  toNat_flagByte_decide _

theorem toNat_shrFlag (b : Byte) : (shrFlag b).toNat = b.toNat % 2 := by
  rw [shrFlag, toNat_flagByte_getLsbD, Nat.pow_zero, Nat.div_one]

theorem toNat_shlFlag (b : Byte) : (shlFlag b).toNat = b.toNat / 128 := by
  have := b.isLt
  rw [shlFlag, toNat_flagByte_getLsbD]; omega

theorem toNat_sub_byte (a b : Byte) : (a - b).toNat = (a.toNat + 256 - b.toNat) % 256 := by
  have := b.isLt
  rw [BitVec.toNat_sub]; omega

theorem toNat_shiftRight_one (b : Byte) : (b >>> 1).toNat = b.toNat / 2 := by
  rw [BitVec.toNat_ushiftRight, Nat.shiftRight_eq_div_pow]

theorem toNat_shiftLeft_one (b : Byte) : (b <<< 1).toNat = b.toNat * 2 % 256 := by
  rw [BitVec.toNat_shiftLeft, Nat.shiftLeft_eq]

theorem State.toNat_shiftSource (s : State) (x y : Reg) :
    (s.shiftSource x y).toNat = if s.cfg.shiftQuirk = true then (s.getV y).toNat else (s.getV x).toNat :=
  apply_ite BitVec.toNat _ _ _

/-! ## The statements -/

/-- Settles O28: each of the three is one register write. -/
theorem loadAddAndCopyWriteVx : Obligations.LoadAddAndCopyWriteVx := fun x _ _ s =>
  ⟨⟨hasWord_of_encodeXNN (op := 0x6) rfl (by decide) rfl, _, rfl, setV_regResult s x rfl⟩,
    ⟨hasWord_of_encodeXNN (op := 0x7) rfl (by decide) rfl, _, rfl, setV_regResult s x (BitVec.toNat_ofNat _ 8)⟩,
    ⟨hasWord_of_encodeXYN (op := 0x8) (n := 0) rfl (by decide) rfl, _, rfl, setV_regResult s x rfl⟩⟩

/-- Settles O29: each of the three is its result written with the quirk's flag. -/
theorem bitwiseOperations : Obligations.BitwiseOperations := fun x _ s =>
  ⟨⟨hasWord_of_encodeXYN_8 (n := 1) rfl rfl, _, rfl, commitBitwise_bitwiseResult s x _⟩,
    ⟨hasWord_of_encodeXYN_8 (n := 2) rfl rfl, _, rfl, commitBitwise_bitwiseResult s x _⟩,
    ⟨hasWord_of_encodeXYN_8 (n := 3) rfl rfl, _, rfl, commitBitwise_bitwiseResult s x _⟩⟩

/-- Settles O30: the sum and the carry, committed in this order. -/
theorem addWritesSumAndCarry : Obligations.AddWritesSumAndCarry := fun x _ s =>
  ⟨hasWord_of_encodeXYN_8 (n := 4) rfl rfl, _, rfl,
    commit_flagResult s x (BitVec.toNat_ofNat _ 8) (toNat_carryFlag _ _)⟩

/-- Settles O31: one difference and one flag, with the operands in either order. -/
theorem subtractionsWriteDifferenceAndNoBorrow : Obligations.SubtractionsWriteDifferenceAndNoBorrow := fun x _ s =>
  ⟨⟨hasWord_of_encodeXYN_8 (n := 5) rfl rfl, _, rfl,
      commitUnlessVF_flagResult s x (toNat_sub_byte _ _) (toNat_noBorrowFlag _ _)⟩,
    ⟨hasWord_of_encodeXYN_8 (n := 7) rfl rfl, _, rfl,
      commitUnlessVF_flagResult s x (toNat_sub_byte _ _) (toNat_noBorrowFlag _ _)⟩⟩

/-- Settles O32: the operand is the one the quirk selects, and its dropped bit is a remainder or a quotient of it. -/
theorem shiftsWriteResultAndLostBit : Obligations.ShiftsWriteResultAndLostBit := by
  intro x y s src hsrc
  obtain rfl : (s.shiftSource x y).toNat = src := (s.toNat_shiftSource x y).trans hsrc.symm
  exact ⟨⟨hasWord_of_encodeXYN_8 (n := 6) rfl rfl, _, rfl,
      commit_flagResult s x (toNat_shiftRight_one _) (toNat_shrFlag _)⟩,
    ⟨hasWord_of_encodeXYN_8 (n := 0xE) rfl rfl, _, rfl,
      commit_flagResult s x (toNat_shiftLeft_one _) (toNat_shlFlag _)⟩⟩

/-- Settles O33: one register write, of whatever byte the pass sampled. -/
theorem randMasksTheRandomByte : Obligations.RandMasksTheRandomByte := fun x nn s =>
  ⟨_, rfl, setV_regResult s x (BitVec.toNat_and s.ports.randByte nn)⟩

end Sys2Proof.Machine
end

section
/-! PROOFS. The index register and memory instructions (42_index_memory.md R190 to R196), O34 to O39: what an access
inside memory reads and leaves, where I goes, and the statements from both. -/

namespace Sys2Proof.Machine

/-! ## Words of format X -/

/-- The word of an instruction with a fixed low byte, its `func` byte (R94). -/
theorem hasWord_of_encodeXNN_func {i : Instr} {op : Nat} {x : Reg} {nn : Byte} (hi : WellFormed i = true)
    (hop : op < 16) (he : encode i = encodeXNN op x nn) : HasWord i (op * 4096 + nn.toNat + 256 * x.val) := by
  rw [Nat.add_right_comm]
  exact hasWord_of_encodeXNN hi hop he

/-! ## Accesses inside memory -/

section Access

variable {s : State}

/-- An access whose last address exists has its effect (R67). -/
theorem State.withRange_of_le {k : Nat} (h : s.dataAddr k ≤ 0xFFF) (i : Instr) (effect : State) :
    s.withRange i k effect = .next effect := by
  rcases s.withRange_cases i k effect with ⟨-, heff⟩ | ⟨hout, -⟩
  · exact heff
  · exact absurd hout (Nat.not_lt.mpr h)

theorem exec_bcd_of_le (h : s.dataAddr 2 ≤ 0xFFF) (x : Reg) :
    exec (.bcd x) s = .next (s.setMem (s.mem.writeBytes (s.dataAddr 0) (digits (s.getV x)))) :=
  State.withRange_of_le h (.bcd x) _

theorem exec_storeRegs_of_le {x : Reg} (h : s.dataAddr x.val ≤ 0xFFF) :
    exec (.storeRegs x) s = .next ((s.setMem (s.mem.writeBytes (s.dataAddr 0) (s.regBlock x))).incI x) :=
  State.withRange_of_le h (.storeRegs x) _

theorem exec_loadRegs_of_le {x : Reg} (h : s.dataAddr x.val ≤ 0xFFF) :
    exec (.loadRegs x) s = .next ((s.setRegs (s.loadedRegs x)).incI x) :=
  State.withRange_of_le h (.loadRegs x) _

/-- The k-th byte of a block written at I stands at I + k. -/
theorem State.read_dataAddr_writeBytes (m : Memory) {bs : List Byte} {k : Nat} (hk : k < bs.length) :
    (m.writeBytes (s.dataAddr 0) bs).read (s.dataAddr k) = bs.getD k 0#8 := by
  simp only [State.dataAddr, Nat.add_zero]
  rw [Memory.read_writeBytes, if_pos (by omega), Nat.add_sub_cancel_left]

/-- A block written from I to I + k leaves every byte outside these addresses. -/
theorem State.read_writeBytes_of_outside (m : Memory) {bs : List Byte} {k a : Nat} (hlen : bs.length = k + 1)
    (ha : a < s.dataAddr 0 ∨ s.dataAddr k < a) : (m.writeBytes (s.dataAddr 0) bs).read a = m.read a := by
  simp only [State.dataAddr, Nat.add_zero] at ha ⊢
  exact Memory.read_writeBytes_outside (by omega)

/-- The byte at I + k after FX55's write is V[k], for every k up to X (R195). -/
theorem State.read_writeBytes_regBlock (m : Memory) {x k : Reg} (hk : k.val ≤ x.val) :
    (m.writeBytes (s.dataAddr 0) (s.regBlock x)).read (s.dataAddr k.val) = s.getV k := by
  have hlen : k.val < (s.regBlock x).length := by rw [State.regBlock_length]; omega
  rw [State.read_dataAddr_writeBytes m hlen, State.regBlock_getD s x k hk]

end Access

/-! ## Where I goes -/

@[simp] theorem State.incI_mem (s : State) (x : Reg) : (s.incI x).mem = s.mem := by
  rw [State.incI_eq, State.setI_mem]

@[simp] theorem State.incI_cfg (s : State) (x : Reg) : (s.incI x).cfg = s.cfg := by
  rw [State.incI_eq, State.setI_cfg]

@[simp] theorem State.incI_getV (s : State) (x q : Reg) : (s.incI x).getV q = s.getV q := by
  rw [State.incI_eq, State.setI_getV]

/-- `IncI` moves I as the mode says, counted from any state with the same I and the same configuration (R190). -/
theorem State.incI_indexMoved {s t : State} (hi : t.i = s.i) (hcfg : t.cfg = s.cfg) (x : Reg) :
    IndexMoved x s (t.incI x) := by
  rw [IndexMoved, State.incI_eq, State.setI_i, hi, hcfg]
  cases s.cfg.incrementMode with
  | xPlus1 => exact BitVec.toNat_ofNat _ 16
  | x => exact BitVec.toNat_ofNat _ 16
  | none => rfl

/-- Five times a byte is never reduced: it is at most 0x4FB (R193). -/
theorem toNat_spriteAddr (b : Byte) : (BitVec.ofNat 16 (b.toNat * 5)).toNat = b.toNat * 5 := by
  have := b.isLt
  rw [BitVec.toNat_ofNat]; omega

/-! ## Digits -/

/-- What is at most the value of a byte is a byte's value, so each digit of a byte is stored as it is (R194). -/
theorem toNat_ofNat_of_le_byte {n : Nat} {b : Byte} (h : n ≤ b.toNat) : (BitVec.ofNat 8 n).toNat = n :=
  (BitVec.toNat_ofNat n 8).trans (Nat.mod_eq_of_lt (Nat.lt_of_le_of_lt h b.isLt))

/-! ## The statements -/

/-- Settles O37: the block is read back byte by byte, and `IncI` follows the write. -/
theorem storeRegsStoresTheBlock : Obligations.StoreRegsStoresTheBlock := by
  intro x s h
  refine ⟨_, exec_storeRegs_of_le h, fun k hk => ?block, fun a ha => ?outside,
    State.incI_indexMoved (by simp) (by simp) x, (setMem_unchangedExcept s _).trans (incI_unchangedExcept _ x)⟩
  case block => rw [State.incI_mem]; exact State.read_writeBytes_regBlock s.mem hk
  case outside => rw [State.incI_mem]; exact State.read_writeBytes_of_outside s.mem (s.regBlock_length x) ha

/-- Settles O39: the load reads where the store wrote, since I is back and the registers in between are not read. -/
theorem storeThenLoadRestoresRegisters : Obligations.StoreThenLoadRestoresRegisters := by
  intro x s between h
  refine ⟨_, _, exec_storeRegs_of_le h, exec_loadRegs_of_le h, fun k hk => ?restored,
    State.incI_indexMoved (by simp) (by simp) x⟩
  case restored =>
    rw [State.incI_getV, State.getV_setRegs_loadedRegs, if_pos hk, State.setI_mem, State.setRegs_mem, State.incI_mem]
    exact State.read_writeBytes_regBlock s.mem hk

/-- Settles O34: each of the two writes I only, with a value that fits. -/
theorem loadIAndSpriteAddrWriteI : Obligations.LoadIAndSpriteAddrWriteI := fun _ nnn s =>
  ⟨⟨hasWord_of_encodeNNN (op := 0xA) rfl (by decide) rfl, _, rfl, toNat_addrOf nnn, setI_unchangedExcept s _⟩,
    ⟨hasWord_of_encodeXNN_func (op := 0xF) (nn := 0x29#8) rfl (by decide) rfl, _, rfl, toNat_spriteAddr _,
      setI_unchangedExcept s _⟩⟩

/-- Settles O35: the sum is written to I, reduced to 16 bits, and nothing else is written. -/
theorem addIAddsWithoutFlag : Obligations.AddIAddsWithoutFlag := fun _ s =>
  ⟨_, rfl, BitVec.toNat_ofNat _ 16, setI_unchangedExcept s _⟩

/-- Settles O36: the three digits are read back, and each is at most V[X]. -/
theorem bcdStoresDigits : Obligations.BcdStoresDigits := by
  intro x s h
  have hread (k : Nat) (hk : k < 3) :
      (s.mem.writeBytes (s.dataAddr 0) (digits (s.getV x))).read (s.dataAddr k) = (digits (s.getV x)).getD k 0#8 :=
    State.read_dataAddr_writeBytes s.mem hk
  refine ⟨_, exec_bcd_of_le h x, ?hundreds, ?tens, ?ones,
    fun _ => State.read_writeBytes_of_outside s.mem rfl, setMem_unchangedExcept s _⟩
  case hundreds =>
    exact (congrArg BitVec.toNat (hread 0 (by decide))).trans (toNat_ofNat_of_le_byte (Nat.div_le_self _ _))
  case tens =>
    exact (congrArg BitVec.toNat (hread 1 (by decide))).trans
      (toNat_ofNat_of_le_byte ((Nat.mod_le _ _).trans (Nat.div_le_self _ _)))
  case ones =>
    exact (congrArg BitVec.toNat (hread 2 (by decide))).trans (toNat_ofNat_of_le_byte (Nat.mod_le _ _))

/-- Settles O38: up to X the registers are the bytes read, above X the old ones, and `IncI` follows. -/
theorem loadRegsLoadsTheBlock : Obligations.LoadRegsLoadsTheBlock := by
  intro x s h
  refine ⟨_, exec_loadRegs_of_le h, fun k => ?loaded, State.incI_indexMoved (by simp) (by simp) x,
    (setRegs_unchangedExcept s _).trans (incI_unchangedExcept _ x)⟩
  case loaded => rw [State.incI_getV]; exact State.getV_setRegs_loadedRegs s x k

end Sys2Proof.Machine
end

section
/-! PROOFS. The display instructions (43_display.md R220 to R226), O41 to O44 and O18: what a drawing that is carried
out leaves of the pixels, VF and the push request, two equal drawings after each other, and the push after either
instruction. -/

namespace Sys2Proof.Machine

/-! ## What a drawing leaves -/

theorem flagByte_eq_one_iff (b : Bool) : flagByte b = 1#8 ↔ b = true := by cases b <;> decide

theorem flagByte_eq_zero_iff (b : Bool) : flagByte b = 0#8 ↔ ¬ b = true := by cases b <;> decide

theorem State.requestPush_pushPending (s : State) :
    s.requestPush.pushPending = (s.cfg.drawOnCall || s.pushPending) := by
  rw [State.requestPush_eq, State.setPushPending_pushPending, Bool.if_true_left, Bool.decide_eq_true]

/-- A draw whose rows are in memory, or that has none, is carried out (R222). -/
theorem exec_draw_of_le {s : State} {n : Fin 16} (h : n.val = 0 ∨ s.dataAddr (n.val - 1) ≤ 0xFFF) (x y : Reg) :
    exec (.draw x y n) s = .next (s.drawn x y n) := by
  by_cases hn : n.val = 0
  · exact if_pos hn
  · rw [exec_draw_eq_withRange hn]
    exact State.withRange_of_le (h.resolve_left hn) (.draw x y n) _

section Drawn

variable (s : State) (x y : Reg) (n : Fin 16)

theorem State.drawn_disp :
    (s.drawn x y n).disp = (drawSprite s.mem s.i.toNat (s.getV y) (s.getV x) n.val s.disp).1 := by
  rw [State.drawn, State.requestPush_eq]; rfl

theorem State.drawn_getV (r : Reg) : (s.drawn x y n).getV r =
    if vf = r then flagByte (drawSprite s.mem s.i.toNat (s.getV y) (s.getV x) n.val s.disp).2 else s.getV r := by
  rw [State.drawn, State.requestPush_eq, State.setPushPending_getV, State.getV_setV]; rfl

theorem State.drawn_pushPending : (s.drawn x y n).pushPending = (s.cfg.drawOnCall || s.pushPending) :=
  State.requestPush_pushPending _

theorem drawn_regsUnchangedExcept : RegsUnchangedExcept [vf] s (s.drawn x y n) := fun r hr => by
  rw [State.drawn_getV, if_neg fun h => hr (List.mem_singleton.mpr h.symm)]

/-- The spec's words for a covered cell and those the drawing loop is described in agree (R222, R223). -/
theorem spriteCovers_iff_rowsCover (row : Row) (col : Col) :
    SpriteCovers s x y n row col ↔ RowsCover s.mem s.i.toNat (s.getV y) (s.getV x) n.val row col := by
  simp only [SpriteCovers, RowsCover, ByteCovers, cellRow_eq_iff, cellCol_eq_iff]
  constructor
  · rintro ⟨r, c, hr, hc, hrow, hcol, hbit⟩
    exact ⟨r, hr, hrow, c, hc, hcol, hbit⟩
  · rintro ⟨r, hr, hrow, c, hc, hcol, hbit⟩
    exact ⟨r, c, hr, hc, hrow, hcol, hbit⟩

/-- Some covered cell is on, so that the draw collides (R224). -/
def SpriteHits : Prop := ∃ row col, SpriteCovers s x y n row col ∧ s.disp.pixel row col = true

theorem State.drawn_pixel (row : Row) (col : Col) : (s.drawn x y n).disp.pixel row col = true ↔
    (s.disp.pixel row col = true ↔ ¬ SpriteCovers s x y n row col) := by
  rw [State.drawn_disp, spriteCovers_iff_rowsCover]
  exact (drawSprite_spec _ _ _ _ _ (by omega) _).1 row col

/-- The collision flag of the drawing loop (R224). -/
theorem drawSprite_snd_iff_spriteHits :
    (drawSprite s.mem s.i.toNat (s.getV y) (s.getV x) n.val s.disp).2 = true ↔ SpriteHits s x y n := by
  simp only [SpriteHits, spriteCovers_iff_rowsCover]
  exact (drawSprite_spec _ _ _ _ _ (by omega) _).2

theorem State.drawn_vf_eq_one_iff : (s.drawn x y n).getV vf = 1#8 ↔ SpriteHits s x y n := by
  rw [State.drawn_getV, if_pos rfl, flagByte_eq_one_iff, drawSprite_snd_iff_spriteHits]

theorem State.drawn_vf_eq_zero_iff : (s.drawn x y n).getV vf = 0#8 ↔ ¬ SpriteHits s x y n := by
  rw [State.drawn_getV, if_pos rfl, flagByte_eq_zero_iff, drawSprite_snd_iff_spriteHits]

end Drawn

/-- Settles O42: the drawing loop flips the covered cells, and its collision flag is what VF receives. -/
theorem drawFlipsCoveredCells : Obligations.DrawFlipsCoveredCells := fun x y n s h =>
  ⟨_, exec_draw_of_le h x y, s.drawn_pixel x y n, (s.drawn_vf_eq_one_iff x y n).mpr,
    (s.drawn_vf_eq_zero_iff x y n).mpr, drawn_regsUnchangedExcept s x y n, s.drawn_pushPending x y n,
    (drawn_unchangedExcept s x y n).mono (by decide)⟩

/-! ## Two equal drawings -/

section Twice

variable {x y : Reg} (s : State) (n : Fin 16) (hx : x ≠ vf) (hy : y ≠ vf)

/-- A drawing keeps I, so the next one reads the same addresses. -/
theorem State.drawn_i (x y : Reg) : (s.drawn x y n).i = s.i := drawn_unchangedExcept s x y n .index (by decide)

theorem State.drawn_mem_read (x y : Reg) (a : Nat) : (s.drawn x y n).mem.read a = s.mem.read a :=
  drawn_unchangedExcept s x y n .memory (by decide) a

include hx hy

/-- The second drawing covers the cells of the first, for its coordinates are not overwritten by the flag (R226). -/
theorem spriteCovers_drawn_iff (row : Row) (col : Col) :
    SpriteCovers (s.drawn x y n) x y n row col ↔ SpriteCovers s x y n row col := by
  simp only [SpriteCovers, State.drawn_i, State.drawn_mem_read, State.drawn_getV, if_neg hx.symm, if_neg hy.symm]

/-- A cell flipped twice or never is as it was (R226). -/
theorem drawn_drawn_pixel (row : Row) (col : Col) :
    ((s.drawn x y n).drawn x y n).disp.pixel row col = s.disp.pixel row col := by
  rw [Bool.eq_iff_iff, State.drawn_pixel, State.drawn_pixel, spriteCovers_drawn_iff s n hx hy]
  by_cases hc : SpriteCovers s x y n row col <;> simp [hc]

/-- The second drawing collides exactly where the first one turned a cell on (R222, R224). -/
theorem spriteHits_drawn_iff : SpriteHits (s.drawn x y n) x y n ↔
    ∃ row col, SpriteCovers s x y n row col ∧ s.disp.pixel row col = false := by
  refine exists_congr fun row => exists_congr fun col => ?_
  rw [spriteCovers_drawn_iff s n hx hy, State.drawn_pixel]
  exact and_congr_right fun hc => by simp [hc]

end Twice

/-- Settles O43: the second draw is carried out as the first was, over the same cells. -/
theorem drawingTwiceRestoresDisplay : Obligations.DrawingTwiceRestoresDisplay := by
  intro x y n s hx hy h
  have h' : n.val = 0 ∨ (s.drawn x y n).dataAddr (n.val - 1) ≤ 0xFFF := by
    rwa [State.dataAddr, State.drawn_i]
  exact ⟨_, _, exec_draw_of_le h x y, exec_draw_of_le h' x y, drawn_drawn_pixel s n hx hy,
    (State.drawn_vf_eq_one_iff _ x y n).trans (spriteHits_drawn_iff s n hx hy)⟩

/-! ## The VF clause of R226 -/

/-- Every pixel on. -/
def Display.allOn : Display := Vector.replicate 32 (BitVec.allOnes 64)

theorem Display.pixel_allOn (y : Row) (x : Col) : Display.allOn.pixel y x = true := by
  rw [Display.pixel, Display.allOn, Vector.getElem_replicate, BitVec.getLsbD_allOnes, decide_eq_true x.isLt]

/-- Refutes O44: glyph 0 of the font, drawn twice at (0, 0) over a display that is all on, finds no cell off before its
first drawing, so its second one does not collide. -/
theorem not_secondDrawAlwaysCollides : ¬ Obligations.SecondDrawAlwaysCollides := by
  intro h
  obtain ⟨t, u, ht, hu, -, hvf⟩ :=
    drawingTwiceRestoresDisplay 0 0 5 (State.reset.setDisp Display.allOn) (by decide) (by decide) (by decide)
  obtain ⟨row, col, -, hoff⟩ := hvf.mp
    (h 0 0 5 _ t u (by decide) (by decide) (by decide) ht hu ⟨0, 7, by decide, by decide, by decide⟩)
  simp [Display.pixel_allOn] at hoff

/-! ## The push after a clear or a draw -/

/-- An instruction that ends in a push request, with none open before: under `draw_on_call` the buffer it leaves is
presented and the request is cleared; otherwise nothing was requested (R225, R287). -/
theorem afterInstruction_requestPush {s : State} (h : s.pushPending = false) :
    ∃ t, afterInstruction (.next s.requestPush) = .next t ∧ t.pushPending = false ∧
      t.displayOut = (if s.cfg.drawOnCall = true then some t.disp else s.displayOut) := by
  refine ⟨_, rfl, ?_⟩
  rw [State.finishPush_eq, State.requestPush_eq]
  cases hcall : s.cfg.drawOnCall with
  | true => simp
  | false => simp [h]

/-- A fault requests no push, so the pass presents nothing for it (R267, R287). -/
theorem afterInstruction_faulted {i : Instr} {c : FaultCause} {a : Word} {s t : State} (hf : Faulted i c a s t)
    (h : s.pushPending = false) : ∃ u, afterInstruction (.next t) = .next u ∧ u.pushPending = false ∧
      u.displayOut = s.displayOut := by
  obtain ⟨-, -, hframe⟩ := hf
  have hkept : t.pushPending = s.pushPending := hframe .pushPending (by decide)
  have hpush : t.pushPending = false := hkept.trans h
  exact ⟨t, by rw [afterInstruction, State.finishPush_of_not_pending hpush], hpush, hframe .displayOut (by decide)⟩

/-- Settles O18: a clear and a draw that is carried out end in a request, a draw beyond memory in a fault. -/
theorem drawingPushesOnCall : Obligations.DrawingPushesOnCall := by
  intro s x y n hpush
  refine ⟨?clear, fun h => ?drawn, fun hn h => ?faulted⟩
  case clear => exact afterInstruction_requestPush (s := s.setDisp Display.off) hpush
  case drawn =>
    rw [exec_draw_of_le h]
    exact afterInstruction_requestPush (s := (s.setDisp _).setV vf _) hpush
  case faulted =>
    obtain ⟨t, ht, hfault, -⟩ := State.withRange_faulted h (.draw x y n) (s.drawn x y n)
    rw [exec_draw_eq_withRange hn, ht]
    exact afterInstruction_faulted hfault hpush

/-- Settles O41: a clear is the buffer turned off and a request. -/
theorem clearTurnsPixelsOff : Obligations.ClearTurnsPixelsOff := by
  refine ⟨hasWord_toNat_encode (i := .clear) rfl, fun s => ⟨_, rfl, fun row col => ?off,
    State.requestPush_pushPending _, (setDisp_unchangedExcept s _).trans (requestPush_unchangedExcept _)⟩⟩
  case off => rw [State.requestPush_eq]; exact Display.pixel_off row col

end Sys2Proof.Machine
end

section
/-! PROOFS. The keyboard and timer instructions (44_keys_timers.md R240 to R246), O45 to O48: which key a byte names,
what a key skip does in either case, and the statements. -/

namespace Sys2Proof.Machine

/-! ## Key numbers -/

/-- A byte up to 0xF names the key of its value (R240). -/
theorem keyOf_of_toNat_eq {b : Byte} {k : Key} (h : b.toNat = k.val) : keyOf b = some k := by
  rw [keyOf, dif_pos (h ▸ k.isLt)]
  exact congrArg some (Fin.ext h)

/-- A byte above 0xF names no key (R240). -/
theorem keyOf_of_gt {b : Byte} (h : 0xF < b.toNat) : keyOf b = none := dif_neg (Nat.not_lt.mpr h)

/-! ## The key skips, case by case -/

section KeySkips

variable {s : State} {x : Reg} {k : Key}

theorem exec_skipKeyDown_of_key (h : keyOf (s.getV x) = some k) :
    exec (.skipKeyDown x) s = .next (s.skipIf (s.getKey k)) := by
  rw [exec, execSkipKeyDown, h]

theorem exec_skipKeyUp_of_key (h : keyOf (s.getV x) = some k) :
    exec (.skipKeyUp x) s = .next (s.skipIf (!s.getKey k)) := by
  rw [exec, execSkipKeyUp, h]

theorem exec_skipKeyDown_of_no_key (h : keyOf (s.getV x) = none) :
    exec (.skipKeyDown x) s = .next (s.raiseIn (.skipKeyDown x) .keyRange ((s.getV x).setWidth 16)) := by
  rw [exec, execSkipKeyDown, h]

theorem exec_skipKeyUp_of_no_key (h : keyOf (s.getV x) = none) :
    exec (.skipKeyUp x) s = .next (s.raiseIn (.skipKeyUp x) .keyRange ((s.getV x).setWidth 16)) := by
  rw [exec, execSkipKeyUp, h]

end KeySkips

/-- KEY_RANGE records the byte as its address and has no policy, so it always halts (R240, R263). -/
theorem raiseIn_keyRange (s : State) (i : Instr) (b : Byte) :
    Faulted i .keyRange (BitVec.ofNat 16 b.toNat) s (s.raiseIn i .keyRange (b.setWidth 16)) ∧
      HaltedByFault (s.raiseIn i .keyRange (b.setWidth 16)) := by
  rw [BitVec.ofNat_toNat]
  exact ⟨raiseIn_faulted s i .keyRange _, State.raiseFault_haltedByFault rfl⟩

/-! ## The tone -/

theorem State.soundActive_iff (s : State) : s.soundActive = true ↔ s.st.toNat ≠ 0 :=
  bne_iff_ne.trans BitVec.toNat_ne

/-! ## The statements -/

/-- Settles O45: both skips are `Skip()` on the state of the key that V[X] names. -/
theorem skipsOnKeyState : Obligations.SkipsOnKeyState := by
  intro x k s h
  have hkey : keyOf (s.getV x) = some k := keyOf_of_toNat_eq h
  exact ⟨⟨_, exec_skipKeyDown_of_key hkey, skipIf_skipResult s Iff.rfl⟩,
    ⟨_, exec_skipKeyUp_of_key hkey, skipIf_skipResult s (Bool.not_eq_true' _).to_iff⟩⟩

/-- Settles O46: V[X] names no key, so both skips raise KEY_RANGE. -/
theorem keyNumberOutOfRangeHalts : Obligations.KeyNumberOutOfRangeHalts := by
  intro x s h
  have hnone : keyOf (s.getV x) = none := keyOf_of_gt h
  exact ⟨⟨_, exec_skipKeyDown_of_no_key hnone, raiseIn_keyRange s _ _⟩,
    ⟨_, exec_skipKeyUp_of_no_key hnone, raiseIn_keyRange s _ _⟩⟩

/-- Settles O47: one register write, and one write to each timer; the tone reads the new ST. -/
theorem timerInstructionsMoveBytes : Obligations.TimerInstructionsMoveBytes := fun x s =>
  ⟨⟨hasWord_of_encodeXNN_func (op := 0xF) (nn := 0x07#8) rfl (by decide) rfl, _, rfl, setV_regResult s x rfl⟩,
    ⟨hasWord_of_encodeXNN_func (op := 0xF) (nn := 0x15#8) rfl (by decide) rfl, _, rfl, rfl,
      setDT_unchangedExcept s _⟩,
    ⟨hasWord_of_encodeXNN_func (op := 0xF) (nn := 0x18#8) rfl (by decide) rfl, _, rfl, rfl,
      setST_unchangedExcept s _, State.soundActive_iff _⟩⟩

/-- Settles O48: the wait is entered with X as its target, and no register is written. -/
theorem waitKeyEntersWaiting : Obligations.WaitKeyEntersWaiting := fun x s =>
  ⟨hasWord_of_encodeXNN_func (op := 0xF) (nn := 0x0A#8) rfl (by decide) rfl, _, rfl, rfl, rfl,
    enterWait_unchangedExcept s x⟩

end Sys2Proof.Machine
end

section
/-! PROOFS. Phases (a) and (b) of a pass (60_exceptions.md R281 to R286), O11 to O17: what the key events leave in the
keys and do to a wait, what the pass answers where it executes no instruction, and the statements. -/

namespace Sys2Proof.Machine

/-! ## The keys after the key events -/

theorem State.keyEvent_getKey (s : State) (e : KeyEvent) (k : Key) :
    (s.keyEvent e).getKey k = if e.key = k then e.down else s.getKey k := by
  rcases s.keyEvent_cases e with ⟨-, h⟩ | ⟨-, -, h⟩ <;> rw [h] <;> simp

/-- After key events a key shows its last one, and its old state without one (R282). -/
theorem State.foldl_keyEvent_getKey (l : List KeyEvent) (s : State) (k : Key) :
    (l.foldl State.keyEvent s).getKey k =
      ((l.filter fun e => e.key == k).getLast?.map KeyEvent.down).getD (s.getKey k) := by
  induction l using List.reverseRecOn with
  | nil => rfl
  | append_singleton l e ih =>
    rw [List.foldl_concat, State.keyEvent_getKey, List.filter_append]
    by_cases he : e.key = k
    · simp [he]
    · simp [he, ih]

/-! ## A wait and the key events -/

section KeyEvents

variable {s : State} {l : List KeyEvent}

/-- Key events that wake nothing, because the block does not wait or because none is a key-down, change neither the run
state nor a register (R283). -/
theorem State.foldl_keyEvent_of_no_wake (h : s.runState ≠ .waiting ∨ ∀ e ∈ l, e.down = false) :
    (l.foldl State.keyEvent s).runState = s.runState ∧ (l.foldl State.keyEvent s).v = s.v := by
  induction l generalizing s with
  | nil => exact ⟨rfl, rfl⟩
  | cons e l ih =>
    rw [List.foldl_cons]
    rcases s.keyEvent_cases e with ⟨-, hk⟩ | ⟨hd, hw, -⟩
    · rw [hk]
      exact ih (h.imp_right fun hl e' he' => hl e' (List.mem_cons_of_mem _ he'))
    · rcases h with h | h
      · exact absurd hw h
      · simp [h e List.mem_cons_self] at hd

/-- A block that waits after key events waited before them, and none was a key-down (R283). -/
theorem State.no_down_of_foldl_keyEvent_waiting (h : (l.foldl State.keyEvent s).runState = .waiting) :
    s.runState = .waiting ∧ ∀ e ∈ l, e.down = false := by
  induction l generalizing s with
  | nil => exact ⟨h, by simp⟩
  | cons e l ih =>
    obtain ⟨hw, hl⟩ := ih h
    rcases s.keyEvent_cases e with ⟨hd, hk⟩ | ⟨-, -, hk⟩ <;> rw [hk] at hw
    · exact ⟨hw, List.forall_mem_cons.mpr ⟨hd.resolve_right fun hn => hn hw, hl⟩⟩
    · cases hw

/-- The first key-down wakes a block that waits, and its number in V[wait_reg] is the only write to a register, whatever
comes after it (R283). -/
theorem State.foldl_keyEvent_of_first_down {l' : List KeyEvent} {e : KeyEvent} (hw : s.runState = .waiting)
    (hl : ∀ e' ∈ l, e'.down = false) (hd : e.down = true) :
    ((l ++ e :: l').foldl State.keyEvent s).runState = .running ∧
    ((l ++ e :: l').foldl State.keyEvent s).v = (s.setV s.waitReg (keyByte e.key)).v := by
  obtain ⟨hrun, hv⟩ := State.foldl_keyEvent_of_no_wake (s := s) (.inr hl)
  have hreg : (l.foldl State.keyEvent s).waitReg = s.waitReg :=
    State.foldl_keyEvent_induction (P := fun t => t.waitReg = s.waitReg)
      (fun t e ht => by simp [State.keyEvent_frame t e, ht]) l s rfl
  rw [List.foldl_append, List.foldl_cons]
  rcases (l.foldl State.keyEvent s).keyEvent_cases e with ⟨hn | hn, -⟩ | ⟨-, -, hk⟩
  · simp [hd] at hn
  · exact absurd (hrun.trans hw) hn
  · obtain ⟨hrun', hv'⟩ := State.foldl_keyEvent_of_no_wake
      (s := (l.foldl State.keyEvent s).keyEvent e) (l := l') (.inl (by simp [hk]))
    rw [hrun', hv', hk]
    exact ⟨rfl, by simp [State.setV, State.setKey, State.wake, hv, hreg]⟩

end KeyEvents

theorem toNat_keyByte (k : Key) : (keyByte k).toNat = k.val := by
  have := k.isLt
  simp only [keyByte, BitVec.toNat_ofNat]; omega

/-! ## What a pass answers without an instruction -/

theorem setPorts_unchangedExcept (s : State) (p : PassInputs) : UnchangedExcept [.platform] s (s.setPorts p) := by
  intro q hq; cases q <;> simp_all [Part.Same]

theorem halt_unchangedExcept (s : State) (r : HaltReason) :
    UnchangedExcept [.runState, .haltReason] s (s.halt r) := by
  intro q hq; cases q <;> simp_all [Part.Same]

section Pass

variable {s : State} {p : PassInputs} (h : PassWith s p)
include h

theorem step_of_halted (hh : s.runState = .halted) : step s = .next (s.passStart p) := by
  rw [step_of_passWith h]
  rcases runPass_cases p s.takeEvent with ⟨-, hx⟩ | ⟨hn, -⟩ | ⟨hn, -⟩
  · exact hx
  · exact absurd hh hn
  · exact absurd hh hn

/-- A quit ends the pass after phase (a) (R284). -/
theorem step_of_quit (hh : s.runState ≠ .halted) (hq : p.quit = true) :
    step s = .next ((s.passStart p).keyPhase.halt .quit) := by
  rw [step_of_passWith h]
  rcases runPass_cases p s.takeEvent with ⟨hn, -⟩ | ⟨-, -, hx⟩ | ⟨-, hn, -⟩
  · exact absurd hn hh
  · exact hx
  · simp [hq] at hn

/-- A pass without an execution slot ends after phase (b) (R287). -/
theorem step_of_no_slot (hh : s.runState ≠ .halted) (hq : p.quit = false) (he : p.execTick = false) :
    step s = .next (s.slotState p) := by
  rw [step_of_passWith h]
  rcases runPass_cases p s.takeEvent with ⟨hn, -⟩ | ⟨-, hn, -⟩ | ⟨-, -, hx⟩
  · exact absurd hn hh
  · simp [hq] at hn
  · rw [hx]
    rcases executePhase_cases (s.slotState p) with ⟨-, hx⟩ | ⟨-, hn, -⟩
    · exact hx
    · simp [State.slotState, he] at hn

end Pass

/-! ## The execution slot has no part in phases (a) and (b) -/

theorem State.setPorts_keyEvent (s : State) (p : PassInputs) (e : KeyEvent) :
    (s.setPorts p).keyEvent e = (s.keyEvent e).setPorts p := by
  rw [State.keyEvent, State.keyEvent, apply_ite (State.setPorts · p)]; rfl

/-- Phase (b) reads `timer_tick` of the inputs and nothing else of them (R285). -/
theorem State.setPorts_timerPhase {s : State} {p : PassInputs} (h : p.timerTick = s.ports.timerTick) :
    (s.setPorts p).timerPhase = s.timerPhase.setPorts p := by
  rw [State.timerPhase, State.timerPhase, State.setPorts_ports, State.setPorts_cfg, h]
  cases s.ports.timerTick <;> cases s.cfg.drawOnCall <;> rfl

/-- Phases (a) and (b) of a pass with another `exec_tick` make the same state, but for the sampled inputs (R286). -/
theorem State.slotState_setExecTick (s : State) (p : PassInputs) (b : Bool) :
    State.slotState { s with pending := .pass { p with execTick := b } :: s.pending.tail } { p with execTick := b } =
      (s.slotState p).setPorts { p with execTick := b } := by
  have hkeys : p.keyEvents.foldl State.keyEvent ((s.passStart p).setPorts { p with execTick := b }) =
      (s.passStart p).keyPhase.setPorts { p with execTick := b } :=
    List.foldl_hom (State.setPorts · _) fun t e => t.setPorts_keyEvent _ e
  calc _ = ((s.passStart p).keyPhase.setPorts { p with execTick := b }).timerPhase :=
        congrArg State.timerPhase hkeys
    _ = _ := State.setPorts_timerPhase (by simp)

/-! ## The statements -/

/-- Settles O13: the key events of a pass are folded over the state at its start. -/
theorem keyShowsItsLastEvent : Obligations.KeyShowsItsLastEvent := by
  intro s p k
  have hkey : (s.passStart p).keyPhase.getKey k =
      ((p.keyEvents.filter fun e => e.key == k).getLast?.map KeyEvent.down).getD (s.getKey k) :=
    State.foldl_keyEvent_getKey p.keyEvents (s.passStart p) k
  rw [hkey]
  cases (p.keyEvents.filter fun e => e.key == k).getLast? <;> rfl

/-- Settles O14: the events in front of the first key-down do not wake, and those after it find no wait. -/
theorem firstKeyDownEndsWait : Obligations.FirstKeyDownEndsWait := by
  intro s p hw
  refine ⟨fun before after k hevents hbefore => ?down, fun hevents => ?noDown⟩
  case down =>
    obtain ⟨hrun, hv⟩ := State.foldl_keyEvent_of_first_down (s := s.passStart p) (l' := after) (e := ⟨k, true⟩) hw
      hbefore rfl
    have hphase : (s.passStart p).keyPhase = (before ++ ⟨k, true⟩ :: after).foldl State.keyEvent (s.passStart p) :=
      congrArg (List.foldl State.keyEvent (s.passStart p)) hevents
    have hget (r : Reg) : (s.passStart p).keyPhase.getV r = (s.setV s.waitReg (keyByte k)).getV r :=
      State.getV_congr (hphase ▸ hv) r
    refine ⟨hphase ▸ hrun, ?_, fun r hr => (hget r).trans (setV_regsUnchangedExcept s s.waitReg _ r hr)⟩
    rw [hget, State.getV_setV, if_pos rfl, toNat_keyByte]
  case noDown =>
    obtain ⟨hrun, hv⟩ := State.foldl_keyEvent_of_no_wake (s := s.passStart p) (.inr hevents)
    exact ⟨hrun.trans hw, fun r _ => State.getV_congr hv r⟩

/-- Settles O15: the pass ends in the state of its slot, which does not depend on `exec_tick`. -/
theorem waitingPassRunsNoInstruction : Obligations.WaitingPassRunsNoInstruction := by
  intro s p h hwait hq
  obtain ⟨-, hregs, hrun, -⟩ := s.slotState_afterInputAndTimers p
  refine ⟨s.slotState p, step_of_waiting h hwait hq, hrun.trans hwait, s.slotState_afterInputAndTimers p,
    fun _ => ?regs, ?otherSlot⟩
  case regs =>
    obtain ⟨-, hnoDown⟩ := State.no_down_of_foldl_keyEvent_waiting hwait
    obtain ⟨-, hv⟩ := State.foldl_keyEvent_of_no_wake (s := s.passStart p) (.inr hnoDown)
    exact fun r => (hregs r).trans (State.getV_congr hv r)
  case otherSlot =>
    rintro _ b rfl
    obtain ⟨-, -, hrun', -⟩ := State.slotState_afterInputAndTimers
      { s with pending := .pass { p with execTick := b } :: s.pending.tail } { p with execTick := b }
    rw [s.slotState_setExecTick p b] at hrun'
    refine ⟨_, step_of_waiting ⟨h.1, rfl⟩ (hrun'.symm.trans (hrun.trans hwait)) hq, ?_⟩
    rw [s.slotState_setExecTick p b]
    exact ⟨setPorts_unchangedExcept _ _, rfl⟩

/-- Settles O11: the pass only samples its inputs and clears the outputs. -/
theorem haltedPassChangesNothing : Obligations.HaltedPassChangesNothing := fun s p h hh =>
  ⟨s.passStart p, step_of_halted h hh, rfl, rfl, passStart_unchangedExcept s p, rfl⟩

/-- Settles O12: the pass ends after phase (a), which writes no register of a running block. -/
theorem quitHaltsBeforeTimers : Obligations.QuitHaltsBeforeTimers := by
  intro s p h hh hq
  refine ⟨_, step_of_quit h hh hq, rfl, rfl, by simp, by simp, fun _ => rfl, fun _ => rfl, fun hrun => ?regs, ?frame⟩
  case regs =>
    obtain ⟨-, hv⟩ := State.keyPhase_of_not_waiting (s := s.passStart p) (by simp [hrun])
    exact State.getV_congr hv
  case frame =>
    exact (((passStart_unchangedExcept s p).trans (keyPhase_unchangedExcept _)).trans (halt_unchangedExcept _ _)).mono
      (by simp)

/-- Settles O16: a counted-down timer is one less, with floor 0, and without a tick phase (b) does nothing. -/
theorem tickCountsTimersDown : Obligations.TickCountsTimersDown := by
  intro s p
  obtain ⟨-, -, -, -, hdt, hst, -⟩ := s.slotState_afterInputAndTimers p
  refine ⟨fun ht => ?tick, fun ht => ?noTick⟩
  case tick => simp [hdt, hst, ht]
  case noTick => exact ⟨BitVec.eq_of_toNat_eq (by simp [hdt, ht]), BitVec.eq_of_toNat_eq (by simp [hst, ht])⟩

/-- Settles O17: the outputs are formed from the snapshot, and a pass without a slot ends after phase (b). -/
theorem tickPushesDisplay : Obligations.TickPushesDisplay := by
  refine ⟨fun s => ⟨fun d hd => ?push, fun hd => ?noPush⟩, State.slotState_afterInputAndTimers,
    fun s p h hh hq he => ⟨_, step_of_no_slot h hh hq he, s.slotState_afterInputAndTimers p⟩⟩
  case push => exact ⟨by simp [State.displayPush, hd], d.frame, by simp [State.displayFrame, hd], d.getLsbD_frame⟩
  case noPush => simp [State.displayPush, State.displayFrame, hd]

end Sys2Proof.Machine
end

section
/-! PROOFS. The run state (60_exceptions.md R289), O52: what an instruction can do to it, what a pass makes of it, and
what the host's acts on `rst` and the load port make of it. -/

namespace Sys2Proof.Machine

/-! ## The instructions -/

/-- The run state and the halt reason are those of `s`. -/
def State.KeepsRunState (s t : State) : Prop := t.runState = s.runState ∧ t.haltReason = s.haltReason

/-- What the rule of instruction `i` may do to the run state: nothing, or it raises a fault, or it is FX0A and enters
WAITING (40_control_flow.md R121, 60_exceptions.md R262 to R265, 44_keys_timers.md R244). -/
def RunStateEffect (i : Instr) (s : State) (o : Host.Outcome State Fault Refusal) : Prop :=
  ∀ t, o = .next t → s.KeepsRunState t ∨ (∃ c a, t = s.raiseIn i c a) ∨ ∃ x, i = .waitKey x ∧ t = s.enterWait x

theorem runStateEffect_raiseIn (i : Instr) (s : State) (c : FaultCause) (a : Word) :
    RunStateEffect i s (.next (s.raiseIn i c a)) := by
  rintro _ ⟨⟩
  exact .inr (.inl ⟨c, a, rfl⟩)

theorem UnchangedExcept.runStateEffect {l : List Part} {s t : State} (h : UnchangedExcept l s t) (i : Instr)
    (hl : .runState ∉ l ∧ .haltReason ∉ l) : RunStateEffect i s (.next t) := by
  rintro _ ⟨⟩
  exact .inl ⟨h .runState hl.1, h .haltReason hl.2⟩

theorem runStateEffect_withRange {i : Instr} {s e : State} (he : RunStateEffect i s (.next e)) (k : Nat) :
    RunStateEffect i s (s.withRange i k e) := by
  rcases s.withRange_cases i k e with ⟨-, h⟩ | ⟨-, h⟩ <;> rw [h]
  · exact he
  · exact runStateEffect_raiseIn i s _ _

theorem runStateEffect_ret (s : State) : RunStateEffect .ret s (execRet s) := by
  rw [execRet]; split
  · exact runStateEffect_raiseIn _ s _ _
  · split
    · exact (setCallStack_setPc_unchangedExcept s _ _).runStateEffect _ (by decide)
    · exact fun _ h => nomatch h

theorem runStateEffect_call (nnn : Addr12) (s : State) : RunStateEffect (.call nnn) s (execCall nnn s) := by
  rw [execCall]; split
  · exact runStateEffect_raiseIn _ s _ _
  · split
    · exact (setCallStack_setPc_unchangedExcept s _ _).runStateEffect _ (by decide)
    · exact fun _ h => nomatch h

theorem runStateEffect_skipKeyDown (x : Reg) (s : State) :
    RunStateEffect (.skipKeyDown x) s (execSkipKeyDown x s) := by
  rw [execSkipKeyDown]; split
  · exact (skipIf_unchangedExcept s _).runStateEffect _ (by decide)
  · exact runStateEffect_raiseIn _ s _ _

theorem runStateEffect_skipKeyUp (x : Reg) (s : State) : RunStateEffect (.skipKeyUp x) s (execSkipKeyUp x s) := by
  rw [execSkipKeyUp]; split
  · exact (skipIf_unchangedExcept s _).runStateEffect _ (by decide)
  · exact runStateEffect_raiseIn _ s _ _

theorem runStateEffect_draw (x y : Reg) (n : Fin 16) (s : State) :
    RunStateEffect (.draw x y n) s (execDraw x y n s) := by
  have hd := (drawn_unchangedExcept s x y n).runStateEffect (.draw x y n) (by decide)
  rw [execDraw]; split
  · exact hd
  · exact runStateEffect_withRange hd _

/-- An instruction that can neither wait nor fault keeps the run state. -/
theorem runStateEffect_of_mnemonic {i : Instr} (hi : i.mnemonic ∉ "wait-key" :: faultingMnemonics) (s : State) :
    RunStateEffect i s (exec i s) := fun t h =>
  have hk := keepsParts_exec i s t h
  .inl ⟨hk .runState hi, hk .haltReason fun hm => hi (List.mem_cons_of_mem _ hm)⟩

/-- Of the nine instructions that can wait or fault, each does so or keeps the run state; the others keep it. -/
theorem runStateEffect_exec (i : Instr) (s : State) : RunStateEffect i s (exec i s) := by
  cases i
  case waitKey x => rintro _ ⟨⟩; exact .inr (.inr ⟨x, rfl, rfl⟩)
  case ret => exact runStateEffect_ret s
  case call nnn => exact runStateEffect_call nnn s
  case skipKeyDown x => exact runStateEffect_skipKeyDown x s
  case skipKeyUp x => exact runStateEffect_skipKeyUp x s
  case draw x y n => exact runStateEffect_draw x y n s
  case bcd x =>
    exact runStateEffect_withRange ((setMem_unchangedExcept s _).runStateEffect _ (by decide)) _
  case storeRegs x =>
    exact runStateEffect_withRange
      (((setMem_unchangedExcept s _).trans (incI_unchangedExcept _ x)).runStateEffect _ (by decide)) _
  case loadRegs x =>
    exact runStateEffect_withRange
      (((setRegs_unchangedExcept s _).trans (incI_unchangedExcept _ x)).runStateEffect _ (by decide)) _
  all_goals exact runStateEffect_of_mnemonic (by simp [Instr.mnemonic, faultingMnemonics]) s

/-! ## The execution slot -/

/-- A fault halts the block and is shown, or, under SKIP, leaves the run state (R262 to R265). -/
theorem State.raiseFault_runState (s : State) (f : FaultRecord) :
    s.KeepsRunState (s.raiseFault f) ∨ HaltedByFault (s.raiseFault f) ∧ (s.raiseFault f).faultEvent = true := by
  rcases s.raiseFault_cases f with ⟨-, h⟩ | ⟨-, h⟩ <;> rw [h]
  · exact .inr ⟨⟨rfl, rfl⟩, rfl⟩
  · exact .inl ⟨rfl, rfl⟩

/-- What executing one instruction can do to the run state: nothing, entering WAITING for the target of the FX0A at pc,
or halting by a fault that is shown (R287, R289). -/
theorem executeOne_runState {s t : State} (h : executeOne s = .next t) :
    s.KeepsRunState t ∨
    (t.runState = .waiting ∧ t.haltReason = s.haltReason ∧
      ∃ w, s.fetchWord = some w ∧ decodeWord w = .ok (.waitKey t.waitReg)) ∨
    (HaltedByFault t ∧ t.faultEvent = true) := by
  rcases executeOne_cases s with ⟨-, hx⟩ | ⟨w, -, -, -, hx⟩ | ⟨w, i, hw, hd, hx⟩ <;> rw [hx] at h
  · cases h
    exact (s.raiseFault_runState _).imp_right .inr
  · cases h
    exact (s.advance.raiseFault_runState _).imp_right .inr
  · rcases runStateEffect_exec i s.advance t h with hkeep | ⟨c, a, rfl⟩ | ⟨x, rfl, rfl⟩
    · exact .inl hkeep
    · exact (s.advance.raiseFault_runState _).imp_right .inr
    · exact .inr (.inl ⟨rfl, rfl, w, hw, hd⟩)

theorem State.finishPush_frame (s : State) : s.finishPush.runState = s.runState ∧
    s.finishPush.haltReason = s.haltReason ∧ s.finishPush.waitReg = s.waitReg ∧
    s.finishPush.faultEvent = s.faultEvent := by
  rw [State.finishPush_eq]; split <;> simp

/-! ## The pass -/

/-- Phase (a) wakes a block that waits exactly by a key-down (R283, R289). -/
theorem State.keyPhase_of_waiting {s : State} (h : s.runState = .waiting) :
    (s.keyPhase.runState = .running ∧ ∃ e ∈ s.ports.keyEvents, e.down = true) ∨
    (s.keyPhase.runState = .waiting ∧ ∀ e ∈ s.ports.keyEvents, e.down = false) := by
  by_cases hdown : ∀ e ∈ s.ports.keyEvents, e.down = false
  · exact .inr ⟨(State.foldl_keyEvent_of_no_wake (.inr hdown)).1.trans h, hdown⟩
  · refine .inl ⟨?_, by simpa using hdown⟩
    cases hrun : s.keyPhase.runState with
    | running => rfl
    | waiting => exact absurd (State.no_down_of_foldl_keyEvent_waiting hrun).2 hdown
    | halted => simp [State.keyPhase_runState_eq_halted_iff, h] at hrun

section Pass

variable {s t : State} {p : PassInputs} (h : PassWith s p) (ht : step s = .next t)
include h ht

theorem pass_of_waiting (hw : (s.passStart p).keyPhase.runState = .waiting) (hq : p.quit = false) :
    t.runState = .waiting ∧ t.waitReg = s.waitReg ∧ t.fault = s.fault ∧ t.faultEvent = false := by
  rw [step_of_waiting h hw hq] at ht
  cases ht
  simp [State.slotState, hw]

/-- A pass of a block that runs after phase (a), without a quit (R286, R287, R289). -/
theorem pass_of_running (hr : (s.passStart p).keyPhase.runState = .running) (hq : p.quit = false) :
    (t.runState = .running ∧ t.haltReason = s.haltReason) ∨
    (t.runState = .waiting ∧ t.haltReason = s.haltReason ∧ p.execTick = true ∧
      ∃ w, s.fetchWord = some w ∧ decodeWord w = .ok (.waitKey t.waitReg)) ∨
    (t.runState = .halted ∧ t.haltReason = .fault ∧ p.execTick = true ∧ t.faultEvent = true) := by
  have hrun : (s.slotState p).runState = .running := by simp [State.slotState, hr]
  have hhalt : (s.slotState p).haltReason = s.haltReason := by simp [State.slotState]
  cases he : p.execTick with
  | false =>
    have hh : s.runState ≠ .halted := fun hh => by
      simp [(State.keyPhase_runState_eq_halted_iff (s.passStart p)).mpr hh] at hr
    rw [step_of_no_slot h hh hq he] at ht
    cases ht
    exact .inl ⟨hrun, hhalt⟩
  | true =>
    rw [step_of_slot h hr hq he] at ht
    obtain ⟨u, hu, rfl⟩ := (afterInstruction_eq_next_iff _ _).mp ht
    obtain ⟨hrun', hhalt', hreg', hevent'⟩ := u.finishPush_frame
    rw [hrun', hhalt', hreg', hevent', ← hrun, ← hhalt, ← s.slotState_fetchWord p]
    rcases executeOne_runState hu with hkeep | ⟨hw, hhr, hword⟩ | ⟨⟨hhalted, hfault⟩, hevent⟩
    · exact .inl hkeep
    · exact .inr (.inl ⟨hw, hhr, rfl, hword⟩)
    · exact .inr (.inr ⟨hhalted, hfault, rfl, hevent⟩)

end Pass

/-! ## The host's acts -/

theorem State.loadImage_runState (s : State) (r : LoadRequest) : (s.loadImage r).runState = s.runState := by
  cases r with
  | unreadable => rfl
  | image bytes => rw [State.loadImage]; split <;> rfl

/-- Only the release after a failed load halts (R321, R328). -/
theorem State.releaseReset_runState (s : State) :
    (s.rst = .asserted .failed → s.releaseReset.runState = .halted ∧ s.releaseReset.haltReason = .loadError) ∧
    (s.rst ≠ .asserted .failed → s.KeepsRunState s.releaseReset) := by
  rw [State.releaseReset]; split
  case h_1 hr => exact ⟨fun _ => ⟨rfl, rfl⟩, fun hn => absurd hr hn⟩
  all_goals
    rename_i hr
    exact ⟨fun hf => (nomatch hr.symm.trans hf), fun _ => ⟨rfl, rfl⟩⟩

/-! ## The statement -/

/-- Settles O52: the pass in each run state, and the host's three other acts. -/
theorem runStateMachine : Obligations.RunStateMachine := by
  refine ⟨fun s t p h ht => ⟨fun hh => ?halted, fun hr => ?running, fun hw => ?waiting, fun hh hq => ?quit,
    pass_of_waiting h ht, pass_of_running h ht⟩, fun s t w he ht => ?assertReset, fun s t r he ht => ?loadImage,
    fun s t he ht => ?release⟩
  case halted =>
    rw [step_of_halted h hh] at ht
    cases ht
    exact ⟨hh, rfl⟩
  case running => exact (State.keyPhase_of_not_waiting (s := s.passStart p) (by simp [hr])).1.trans hr
  case waiting => exact State.keyPhase_of_waiting (s := s.passStart p) hw
  case quit =>
    rw [step_of_quit h hh hq] at ht
    cases ht
    exact ⟨rfl, rfl⟩
  case assertReset =>
    rw [step, he, applyEvent, hostAssertReset] at ht
    split at ht <;> cases ht
    rfl
  case loadImage =>
    rw [step, he, applyEvent, hostLoadImage] at ht
    split at ht <;> cases ht
    exact s.takeEvent.loadImage_runState r
  case release =>
    rw [step, he] at ht
    cases ht
    exact s.takeEvent.releaseReset_runState

end Sys2Proof.Machine
end

section
/-! PROOFS. Reset and the load (10_state.md R44, R48; 70_reset_and_hazards.md R320 to R328), O51 and O57 to O59: what a
step that answers a next state was, what each of the host's acts makes of the state, and the statements. -/

namespace Sys2Proof.Machine

/-! ## The step, act by act -/

section Step

variable {s : State}

theorem step_of_pass_of_asserted {p : PassInputs} {l : LoadStatus} (he : s.nextEvent = .pass p)
    (hr : s.rst = .asserted l) : step s = .next s.takeEvent := by
  simp [step, he, applyEvent, hostPass, hr]

theorem step_of_assertReset {w : BitVec 9} {c : Cfg} (he : s.nextEvent = .assertReset w) (hw : cfgOfBits w = some c) :
    step s = .next (s.takeEvent.assertReset c) := by
  simp [step, he, applyEvent, hostAssertReset, hw]

theorem step_of_loadImage {r : LoadRequest} (he : s.nextEvent = .loadImage r) (hr : s.rst = .asserted .notCalled) :
    step s = .next (s.takeEvent.loadImage r) := by
  simp [step, he, applyEvent, hostLoadImage, hr]

theorem step_of_releaseReset (he : s.nextEvent = .releaseReset) : step s = .next s.takeEvent.releaseReset := by
  rw [step, he]; rfl

end Step

/-- Everything that a step can do: a pass; nothing, where `rst` is asserted; or one of the host's acts (R280, R320 to
R328). -/
theorem step_eq_next_cases {s t : State} (h : step s = .next t) :
    (∃ p, PassWith s p ∧ runPass p s.takeEvent = .next t) ∨
    (∃ p l, s.nextEvent = .pass p ∧ s.rst = .asserted l ∧ t = s.takeEvent) ∨
    (∃ w c, s.nextEvent = .assertReset w ∧ cfgOfBits w = some c ∧ t = s.takeEvent.assertReset c) ∨
    (∃ r, s.nextEvent = .loadImage r ∧ s.rst = .asserted .notCalled ∧ t = s.takeEvent.loadImage r) ∨
    (s.nextEvent = .releaseReset ∧ t = s.takeEvent.releaseReset) := by
  cases he : s.nextEvent with
  | pass p =>
    cases hr : s.rst with
    | released => exact .inl ⟨p, ⟨hr, he⟩, (step_of_passWith ⟨hr, he⟩).symm.trans h⟩
    | asserted l =>
      rw [step_of_pass_of_asserted he hr] at h
      cases h
      exact .inr (.inl ⟨p, l, rfl, rfl, rfl⟩)
  | assertReset w =>
    rw [step, he, applyEvent, hostAssertReset] at h
    split at h <;> cases h
    exact .inr (.inr (.inl ⟨w, _, rfl, ‹_›, rfl⟩))
  | loadImage r =>
    rw [step, he, applyEvent, hostLoadImage] at h
    split at h <;> cases h
    exact .inr (.inr (.inr (.inl ⟨r, rfl, ‹_›, rfl⟩)))
  | releaseReset =>
    rw [step_of_releaseReset he] at h
    cases h
    exact .inr (.inr (.inr (.inr ⟨rfl, rfl⟩)))

/-! ## Frames -/

section Frames

variable (s : State)

theorem takeEvent_unchangedExcept : UnchangedExcept [.platform] s s.takeEvent := by
  intro q hq; cases q <;> simp_all [Part.Same]

theorem setRst_unchangedExcept (r : ResetLine) : UnchangedExcept [.platform] s (s.setRst r) := by
  intro q hq; cases q <;> simp_all [Part.Same]

theorem finishPush_unchangedExcept : UnchangedExcept [.displayOut, .pushPending] s s.finishPush := by
  rw [State.finishPush_eq]
  intro q hq; split <;> cases q <;> simp_all [Part.Same]

/-- The parts that an assertion of `rst` does not take from the reset state (R48; log entry 14). -/
theorem assertReset_unchangedExcept (c : Cfg) :
    UnchangedExcept [.config, .memory, .callStack, .platform] State.reset (s.assertReset c) := by
  intro q hq; cases q <;> simp_all [Part.Same, State.assertReset, State.getV, State.getKey]

end Frames

/-! ## The load and the release -/

section Load

variable {s : State}

/-- An image that fits is written to 0x200 (R327). -/
theorem State.loadImage_of_fits {bytes : List Byte} (h : bytes.length ≤ 3584) :
    s.loadImage (.image bytes) = (s.setMem (s.mem.writeBytes loadBase bytes)).setRst (.asserted .ok) := by
  have hfit : ¬ bytes.length + loadBase > memSize := by simp only [loadBase, memSize]; omega
  rw [State.loadImage, if_neg hfit]

/-- An unreadable source and an image that does not fit leave their mark on the line only (R328). -/
theorem State.loadImage_of_fails {r : LoadRequest}
    (h : r = .unreadable ∨ ∃ bytes : List Byte, r = .image bytes ∧ 3584 < bytes.length) :
    s.loadImage r = s.setRst (.asserted .failed) := by
  rcases h with rfl | ⟨bytes, rfl, hlen⟩
  · rfl
  · have hbig : bytes.length + loadBase > memSize := by simp only [loadBase, memSize]; omega
    rw [State.loadImage, if_pos hbig]

theorem State.loadImage_cfg (r : LoadRequest) : (s.loadImage r).cfg = s.cfg := by
  cases r with
  | unreadable => rfl
  | image bytes => rw [State.loadImage]; split <;> rfl

theorem State.releaseReset_of_failed (h : s.rst = .asserted .failed) :
    s.releaseReset = (s.halt .loadError).setRst .released := by
  rw [State.releaseReset, h]

theorem State.releaseReset_of_not_failed (h : s.rst = .asserted .ok ∨ s.rst = .asserted .notCalled) :
    s.releaseReset = s.setRst .released := by
  rcases h with h | h <;> rw [State.releaseReset, h]

theorem State.releaseReset_cfg : s.releaseReset.cfg = s.cfg := by
  rw [State.releaseReset]; split <;> rfl

end Load

/-! ## The memory of a reset -/

theorem resetMemory_read_font (font : Vector Byte 80) (k : Fin 80) : (resetMemory font).read k.val = font[k.val] := by
  have hlen : font.toList.length = 80 := font.length_toList
  rw [resetMemory, Memory.read_writeBytes, if_pos (by omega), Nat.sub_zero, List.getD_eq_getElem _ _ (by omega)]
  exact Vector.getElem_toList _

theorem resetMemory_read_of_le (font : Vector Byte 80) {a : Nat} (h : 0x050 ≤ a) : (resetMemory font).read a = 0#8 := by
  have hlen : font.toList.length = 80 := font.length_toList
  rw [resetMemory, Memory.read_writeBytes_outside (by omega)]
  exact unlistedByte_of_le h

/-! ## CONFIG in a pass -/

theorem executeOne_cfg {s t : State} (h : executeOne s = .next t) : t.cfg = s.cfg := by
  rcases executeOne_cases s with ⟨-, hx⟩ | ⟨w, -, -, -, hx⟩ | ⟨w, i, -, -, hx⟩ <;> rw [hx] at h
  · cases h
    exact raiseFault_unchangedExcept s _ .config (by decide)
  · cases h
    exact raiseFault_unchangedExcept s.advance _ .config (by decide)
  · exact keepsParts_exec i s.advance t h .config List.not_mem_nil

/-- Phases (c) and (d) keep CONFIG, for the instruction and its push do (R286, R287). -/
theorem executePhase_cfg {s t : State} (h : executePhase s = .next t) : t.cfg = s.cfg := by
  rcases executePhase_cases s with ⟨-, hx⟩ | ⟨-, -, hx⟩ <;> rw [hx] at h
  · cases h
    rfl
  · obtain ⟨u, hu, rfl⟩ := (afterInstruction_eq_next_iff _ _).mp h
    have hpush : u.finishPush.cfg = u.cfg := finishPush_unchangedExcept u .config (by decide)
    exact hpush.trans (executeOne_cfg hu)

/-- A pass keeps CONFIG, whichever of its phases it ends after (R280, R324). -/
theorem runPass_cfg {s t : State} {p : PassInputs} (h : runPass p s = .next t) : t.cfg = s.cfg := by
  rcases runPass_cases p s with ⟨-, hx⟩ | ⟨-, -, hx⟩ | ⟨-, -, hx⟩ <;> rw [hx] at h
  · cases h
    rfl
  · cases h
    simp
  · simpa using executePhase_cfg h

/-! ## The statements -/

/-- Settles O51: of all that a step can do, only an assertion of `rst` writes CONFIG. -/
theorem configChangesOnlyAtReset : Obligations.ConfigChangesOnlyAtReset := by
  intro s t h
  rcases step_eq_next_cases h with ⟨p, ⟨-, he⟩, hp⟩ | ⟨p, l, he, -, rfl⟩ | ⟨w, c, he, hw, rfl⟩ | ⟨r, he, -, rfl⟩ |
    ⟨he, rfl⟩
  · have hcfg : t.cfg = s.takeEvent.cfg := runPass_cfg hp
    exact .inr ⟨by simp [he], hcfg⟩
  · exact .inr ⟨by simp [he], rfl⟩
  · exact .inl ⟨w, he, hw⟩
  · exact .inr ⟨by simp [he], State.loadImage_cfg r⟩
  · exact .inr ⟨by simp [he], State.releaseReset_cfg⟩

/-- Settles O57: a pass only takes its event, and an assertion writes the reset state around the font, the stack's
depth and the configuration inputs. -/
theorem assertingResetRestoresState : Obligations.AssertingResetRestoresState := by
  refine ⟨fun s p l he hr => ?noPass, fun s w c he hw => ?assert⟩
  case noPass => exact ⟨_, step_of_pass_of_asserted he hr, rfl, rfl, takeEvent_unchangedExcept s⟩
  case assert =>
    exact ⟨_, step_of_assertReset he hw, rfl, rfl, resetMemory_read_font s.font,
      fun _ ha => resetMemory_read_of_le s.font ha, rfl, List.length_replicate,
      fun _ ha => List.eq_of_mem_replicate ha, rfl, rfl, assertReset_unchangedExcept s.takeEvent c⟩

/-- Settles O58: the image is written to 0x200, and read back byte by byte. -/
theorem loadImageCopiesBytes : Obligations.LoadImageCopiesBytes := by
  intro s bytes he hr hlen
  refine ⟨_, (step_of_loadImage he hr).trans (congrArg _ (State.loadImage_of_fits hlen)), rfl, fun k hk => ?image,
    fun a ha => Memory.read_writeBytes_outside ha, rfl, ?frame⟩
  case image =>
    have hread := Memory.read_writeBytes s.mem 0x200 (0x200 + k) bytes
    rwa [if_pos (by omega), Nat.add_sub_cancel_left, List.getD_eq_getElem _ _ hk] at hread
  case frame =>
    exact (((takeEvent_unchangedExcept s).trans (setMem_unchangedExcept _ _)).trans (setRst_unchangedExcept _ _)).mono
      (by simp)

/-- Settles O59: a failed load is a mark on the line, which its release turns into a halt; any other release writes the
line only. -/
theorem failedLoadHaltsAtRelease : Obligations.FailedLoadHaltsAtRelease := by
  refine ⟨fun s r he hr hfail => ?load, fun s he hr => ?failed, fun s he hr => ?other⟩
  case load =>
    exact ⟨_, (step_of_loadImage he hr).trans (congrArg _ (State.loadImage_of_fails hfail)), rfl,
      ((takeEvent_unchangedExcept s).trans (setRst_unchangedExcept _ _)).mono (by simp)⟩
  case failed =>
    exact ⟨_, (step_of_releaseReset he).trans (congrArg _ (State.releaseReset_of_failed hr)), rfl, rfl, rfl,
      (((takeEvent_unchangedExcept s).trans (halt_unchangedExcept _ _)).trans (setRst_unchangedExcept _ _)).mono
        (by simp)⟩
  case other =>
    exact ⟨_, (step_of_releaseReset he).trans (congrArg _ (State.releaseReset_of_not_failed hr)), rfl,
      ((takeEvent_unchangedExcept s).trans (setRst_unchangedExcept _ _)).mono (by simp)⟩

end Sys2Proof.Machine
end
